-- ==== Sys2Proof/Word.lean ====
section
/-!
DEFINITION. The words and numbers of the NG4832: the 32-bit word of a lane and of a record (R1, R191), the 64-bit host byte
address (Section 2.2), and the bounded numbers by which the manual names streams, slots and lines. Bit-field helpers stand in
Machine/Bits.lean, where a later repair can reach them.
-/
namespace Sys2Proof

/-- A word: 32 bits (Section 2.2). -/
abbrev Word := BitVec 32

/-- A byte address in host memory: 64 bits (Section 2.2). -/
abbrev Addr := BitVec 64

/-- A byte of host memory. -/
abbrev Byte := BitVec 8

/-- A frame number: a 32-bit count that wraps (R24). -/
abbrev FrameNo := BitVec 32

/-- A generation, 0 to 255, wrapping (R66). -/
abbrev Gen := BitVec 8

/-- A stream number, 0 to 31 (R37). -/
abbrev StreamId := Fin 32

/-- A slot position of a lane, 0 to 47 (Section 1, "slot"). -/
abbrev SlotId := Fin 48

/-- A channel number, 0 to 7 (R61). -/
abbrev ChannelId := Fin 8

/-- A sense line, 0 to 7 (R138). -/
abbrev LineId := Fin 8

/-- A marker line, 0 to 3 (R146). -/
abbrev MarkerId := Fin 4

end Sys2Proof
end

