-- ==== Sys2Proof/Config.lean ====
section
/-!
DEFINITION. The values the manual leaves open, as constants with no body: nothing in Lean can evaluate one or prove which value
it has, so a statement about a state that holds one is a statement about every value.
-/
namespace Sys2Proof.Config

/-- The slot word that a DAMAGED resolution hands on for a slot the damaged return has no word for (R6, R13 and R121 state
none: a return with a failed check may hold any number of words). The first argument is the number of the DAMAGED resolution
since the model's start (`State.freeSeq`), the second the slot. Log entry 3. -/
opaque absentSlotWord : Nat → Nat → Word

/-- The host address that a request reaches whose byte address, computed from a base and an index, passes 2^64 − 1 (the
manual gives addresses 64 bits and states nothing beyond). Log entry 4. -/
opaque addressBeyondTop : Nat → Addr

/-- What bits 7:0 of snapshot word 0 hold for a QUIESCING stream: R198 lists no code for it, since no QUERY STREAM is taken
while a stream is QUIESCING. Log entry 5. -/
opaque quiescingStateCode : Nat

end Sys2Proof.Config
end

