-- ==== Sys2Proof/Machine/Bits.lean ====
section
/-!
DEFINITION. Bit fields of words, as Record Layouts writes them ("bits 15:8"), and host addresses.
-/
namespace Sys2Proof.Machine

/-- The field of `len` bits whose lowest bit is `lo`: bits (lo + len − 1):lo of the word. -/
def field (w : Word) (lo len : Nat) : Nat := (w.toNat >>> lo) % 2 ^ len

/-- `n` placed in a word with its lowest bit at `lo`. -/
def place (lo n : Nat) : Word := BitVec.ofNat 32 (n <<< lo)

/-- A Bool as a one-bit field. -/
def flag (b : Bool) : Nat := if b then 1 else 0

/-- Marks packed into a number, mark k in bit k. -/
def packBits : List Bool → Nat
  | [] => 0
  | b :: bs => flag b + 2 * packBits bs

/-- A 64-bit field of a record: the low word first (R191). -/
def address (lo hi : Word) : Addr := BitVec.ofNat 64 (lo.toNat + 2 ^ 32 * hi.toNat)

/-- The low word of a 64-bit field (R191). -/
def lowWord (a : Addr) : Word := BitVec.ofNat 32 a.toNat

/-- The high word of a 64-bit field (R191). -/
def highWord (a : Addr) : Word := BitVec.ofNat 32 (a.toNat >>> 32)

/-- The host byte address with the number `n`. The manual states nothing for a computed address above 2^64 − 1, so there the
address is a free value (log entry 4). -/
def hostAddress (n : Nat) : Addr :=
  if n < 2 ^ 64 then BitVec.ofNat 64 n else Config.addressBeyondTop n

/-- A count that stops at 65535 and holds there (R14, R37, R138, R168). -/
def countUp (n : Nat) : Nat := if n < 65535 then n + 1 else 65535

end Sys2Proof.Machine
end

