-- ==== Sys2Proof/Machine/Crc.lean ====
section
/-!
DEFINITION. The check word of a frame (R4): a 32-bit CRC, generator 0x04C11DB7, preset to all ones, bits entered without
reflection and each word most significant bit first, the register inverted at the end.
-/
namespace Sys2Proof.Machine

/-- The generator polynomial of R4. -/
def crcPolynomial : BitVec 32 := 0x04C11DB7

/-- One bit entered into the CRC register. -/
def crcBit (register : BitVec 32) (bit : Bool) : BitVec 32 :=
  if register.msb != bit then (register <<< 1) ^^^ crcPolynomial else register <<< 1

/-- The bits of a word, most significant first, as they stand on the wire (R1). -/
def wireBits (w : Word) : List Bool := (List.range 32).map fun i => w.getMsbD i

/-- The CRC of a run of bits. -/
def crcBits (bits : List Bool) : Word := ~~~ (bits.foldl crcBit 0xFFFFFFFF)

/-- The check word over a run of words in frame order (R4). -/
def checkWord (words : List Word) : Word := crcBits (words.flatMap wireBits)

end Sys2Proof.Machine
end

