-- ==== Sys2Proof/Syntax.lean ====
section
/-!
DEFINITION. The commands of the engine: one constructor of `Instr` for each row of spec/opcode_table.json, in the table's
order. The rows are the part's steps: a write of the host to the register window, an answer of the host bus, a taken command
record, an event of the link, of a line or of a timer, and the steps that the engine's own blocks make.
Operands carry what comes from outside: the words written, read or received, and which line, stream or requester is meant.
-/
namespace Sys2Proof

/-- The five words of the register window (R179), in the order of the table in 12.2. -/
inductive Register where
  | baseLow
  | baseHigh
  | control
  | status
  | notify
  deriving DecidableEq, Repr

/-- What brings a hard reset (R189): the reset pin driven active, or the application of power. -/
inductive ResetSource where
  | pin
  | power
  deriving DecidableEq, Repr

/-- The direction of an edge on a sense line (R138). -/
inductive Edge where
  | rising
  | falling
  deriving DecidableEq, Repr

/-- The tag of a request to host memory (R182): the block that asked and, for stream requests, the stream. A stream has at
most one data read (OUT) or data write (IN), so one tag serves both. -/
inductive Requester where
  | hostWindow
  | commandProcessor
  | completionUnit
  | scheduleUnit
  | streamTable
  | descriptor (stream : StreamId)
  | data (stream : StreamId)
  deriving DecidableEq, Repr

/-- A command record as the command read returned it (12.4), less its code, which the row itself names: the sequence tag of
word 0 bits 31:16 and the words 1 to 7. Word 0 bits 15:8 are not examined (R194) and are left out. -/
structure CommandRecord where
  tag : BitVec 16
  w1 : Word
  w2 : Word
  w3 : Word
  w4 : Word
  w5 : Word
  w6 : Word
  w7 : Word
  deriving DecidableEq, Repr

/-- One constructor for each row of spec/opcode_table.json. -/
inductive Instr where
  /-- ENABLE (R183): a full write to the engine control word carrying ENABLE and not RESET. -/
  | enable
  /-- SOFT_RESET (R187): a full write to the engine control word carrying RESET. -/
  | softReset
  /-- REGISTER_WRITE (R179): any other write to the register window. `full` is clear for a write of fewer than four bytes. -/
  | registerWrite (reg : Register) (full : Bool) (value : Word)
  /-- HARD_RESET (R189): the reset pin or power. `levels` bit k is the level of sense line k at the reset (R150), 1 high. -/
  | hardReset (source : ResetSource) (levels : BitVec 8)
  /-- NOTIFY_COMMAND_RING (R152): a notify with selector 0. -/
  | notifyCommandRing (value : BitVec 16)
  /-- ACKNOWLEDGE (R173): a notify with selector 1. -/
  | acknowledge (value : BitVec 16)
  /-- NOTIFY_BLOCK_RING (R89): a notify with selector 2 + stream. -/
  | notifyBlockRing (stream : StreamId) (value : BitVec 16)
  /-- NOTIFY_NO_RING (R174): a notify with a selector above 33. -/
  | notifyNoRing (selector : BitVec 8) (value : BitVec 16)
  /-- CONTROL_AREA_LOADED (R183): the control-area read completes without error, with the eight words of R193. -/
  | controlAreaLoaded (words : Vector Word 8)
  /-- CONTROL_READ_ERROR (R184). -/
  | controlReadError
  /-- COMMAND_READ_ISSUE (R153): the Command Processor looks at its conditions. -/
  | commandReadIssue
  /-- COMMAND_READ_ERROR (R154). -/
  | commandReadError
  /-- UNKNOWN_COMMAND (R155): a command read completes without error; `code` is word 0 bits 7:0 and names no command. -/
  | unknownCommand (code : BitVec 8) (record : CommandRecord)
  /-- LINK_CONFIGURE (R22), code 0x01; a command read completes without error, here and in the rows down to INJECT_FAULT. -/
  | linkConfigure (record : CommandRecord)
  /-- LINK_START (R25), code 0x02. -/
  | linkStart (record : CommandRecord)
  /-- LINK_STOP (R30), code 0x03. -/
  | linkStop (record : CommandRecord)
  /-- OPEN_STREAM (R45), code 0x10. -/
  | openStream (record : CommandRecord)
  /-- CLOSE_STREAM (R50), code 0x11. -/
  | closeStream (record : CommandRecord)
  /-- RESTART_STREAM (R51), code 0x12. -/
  | restartStream (record : CommandRecord)
  /-- QUERY_STREAM (R58), code 0x13. -/
  | queryStream (record : CommandRecord)
  /-- LOAD_SCHEDULE (R68), code 0x20. -/
  | loadSchedule (record : CommandRecord)
  /-- COMMIT_SCHEDULE (R74), code 0x21. -/
  | commitSchedule (record : CommandRecord)
  /-- CANCEL_COMMIT (R80), code 0x22. -/
  | cancelCommit (record : CommandRecord)
  /-- SET_SENSE (R139), code 0x30. -/
  | setSense (record : CommandRecord)
  /-- POST_EVENT (R160), code 0x40. -/
  | postEvent (record : CommandRecord)
  /-- INJECT_FAULT (R161), code 0x41. -/
  | injectFault (record : CommandRecord)
  /-- HELD_LOAD_PERFORMED (R84): the Schedule Unit looks whether a held LOAD may be performed. -/
  | heldLoadPerformed
  /-- CHANGE_LIST_READ_DONE (R69): a change-list read completes without error, with its entries. -/
  | changeListReadDone (entries : List Word)
  /-- CHANGE_LIST_READ_ERROR (R72). -/
  | changeListReadError
  /-- SNAPSHOT_WRITE_DONE (R58): the snapshot write completes; `error` is set for an error response. -/
  | snapshotWriteDone (error : Bool)
  /-- FRAME_TIMER_EXPIRY (R23). -/
  | frameTimerExpiry
  /-- TRANSMISSION_END (R32): the last word of an outbound frame is sent. -/
  | transmissionEnd
  /-- RETURN_ARRIVAL (R5): a run of words on the IN lane ends. `ragged` is set when it ends with a run of fewer than 32 bits
  that is not counted as a word (R6). -/
  | returnArrival (words : List Word) (ragged : Bool)
  /-- LOOPED_RETURN (R17): INTERNAL loop mode makes the frame's own words a return arrival. -/
  | loopedReturn
  /-- DEADLINE_EXPIRY (R9): the deadline timer of the oldest window entry runs out. -/
  | deadlineExpiry
  /-- ENTRY_TO_STOPPED (R32): the Link Controller passes from STOPPING to STOPPED. -/
  | entryToStopped
  /-- TIMEOUT_EXPIRY (R29). -/
  | timeoutExpiry
  /-- SENSE_LINE_EDGE (R138): the level of `line` changes in the direction `edge`, `micros` whole microseconds after the
  current frame's frame start (looked at only while the link is RUNNING, R141). -/
  | senseLineEdge (line : LineId) (edge : Edge) (micros : Nat)
  /-- TRIGGER_EDGE_REPORT (R28): the Link Controller takes the Line Unit's report of the watched edge. -/
  | triggerEdgeReport
  /-- DESCRIPTOR_READ_ISSUE (R90): the Block Ring Unit looks at its conditions for the stream. -/
  | descriptorReadIssue (stream : StreamId)
  /-- DESCRIPTOR_READ_DONE (R91): a descriptor read completes without error, with the four words of R196. -/
  | descriptorReadDone (stream : StreamId) (words : Vector Word 4)
  /-- DESCRIPTOR_READ_ERROR (R91). -/
  | descriptorReadError (stream : StreamId)
  /-- DATA_READ_ISSUE (R102): the Fetch Unit looks at its conditions for the stream. -/
  | dataReadIssue (stream : StreamId)
  /-- DATA_READ_DONE (R104): a data read completes without error, with its samples in address order. -/
  | dataReadDone (stream : StreamId) (samples : List Word)
  /-- DATA_READ_ERROR (R105). -/
  | dataReadError (stream : StreamId)
  /-- DATA_WRITE_ISSUE (R127): the Store Unit looks at its conditions for the stream. -/
  | dataWriteIssue (stream : StreamId)
  /-- DATA_WRITE_DONE (R129). -/
  | dataWriteDone (stream : StreamId)
  /-- DATA_WRITE_ERROR (R130). -/
  | dataWriteError (stream : StreamId)
  /-- DRAIN_FINISHED (R54): a quiescing stream has no request in flight. -/
  | drainFinished (stream : StreamId)
  /-- END_OF_CLOSE (R55). -/
  | endOfClose (stream : StreamId)
  /-- END_OF_RESTART (R56). -/
  | endOfRestart (stream : StreamId)
  /-- RING_WRITE_ISSUE (R170): the Completion Unit looks at its conditions. -/
  | ringWriteIssue
  /-- RING_WRITE_DONE (R170). -/
  | ringWriteDone
  /-- EVENT_LOSS (R169): the first claim on a freed place. -/
  | eventLoss
  /-- WAITING_COMMAND_SERVED (R153): the second claim on a freed place. -/
  | waitingCommandServed
  /-- WAITING_RETIREMENT_SERVED (R96): the third claim on a freed place. -/
  | waitingRetirementServed
  /-- RING_WRITE_ERROR (R172). -/
  | ringWriteError
  /-- HOLDOFF_EXPIRY (R175). -/
  | holdoffExpiry
  /-- ANSWER_IN_RESETTING (R188): the host bus answers the request with this tag, with or without error. -/
  | answerInResetting (requester : Requester)
  /-- RESET_PIN_RELEASED (R189). -/
  | resetPinReleased
  deriving DecidableEq, Repr

end Sys2Proof
end

