-- ==== Sys2Proof/Machine/State.lean ====
section
/-!
DEFINITION. The state of the NG4832, block by block as Section 0.3 names its owners, as plain data; the reasons a step can
stop; and the state right after reset. Values that the manual derives from others (the interrupt line, the engine status
word, the requests a block has in flight) are stored once and computed in Machine/Flags.lean.
-/
namespace Sys2Proof.Machine

/-! ## Host Window (R179, R181) -/

/-- The engine state (R181). -/
inductive EngineState where
  | off
  | loading
  | ready
  | fault
  | resetting
  deriving DecidableEq, Repr

/-- The last fault cause (R179, R185). -/
inductive FaultCause where
  | none
  | controlRead
  | controlInvalid
  | commandRead
  | completionWrite
  deriving DecidableEq, Repr

/-- What the Host Window holds (Section 0.3, R179), and the level of the reset pin (R189). -/
structure HostWindow where
  /-- Control-area base, low half. -/
  baseLow : Word
  /-- Control-area base, high half. -/
  baseHigh : Word
  engine : EngineState
  lastFault : FaultCause
  /-- Set while the reset pin is held active (R189). -/
  resetHeld : Bool
  deriving DecidableEq, Repr

/-! ## Memory Request Port (R182) -/

/-- What a request asks of host memory: to read a number of words, or to write the words given. -/
inductive Transfer where
  | read (words : Nat)
  | write (words : List Word)
  deriving DecidableEq, Repr

/-- A request in flight: its tag, its host byte address and what it asks (R182). -/
structure Request where
  requester : Requester
  address : Addr
  transfer : Transfer
  deriving DecidableEq, Repr

/-! ## Command Processor (R151) -/

/-- What identifies a command in its COMMAND_DONE record (R158): the code as read, the ring index it was taken from and its
sequence tag. -/
structure Command where
  code : BitVec 8
  ringIndex : Nat
  tag : BitVec 16
  deriving DecidableEq, Repr

/-- The processor state (R151). HELD carries the command being held, which keeps the processor's reservation (R156). -/
inductive ProcessorState where
  | idle
  | waitingPlace
  | reading
  | held (command : Command)
  deriving DecidableEq, Repr

/-- A ring in host memory: its base and its size in records. -/
structure Ring where
  base : Addr
  size : Nat
  deriving DecidableEq, Repr

/-- What the Command Processor holds (R151). Its reservations are counted in `Completion.reservations`. -/
structure Processor where
  /-- Command ring base and size; absent before ENABLE (R164). -/
  ring : Option Ring
  producer : Nat
  consumer : Nat
  state : ProcessorState
  deriving DecidableEq, Repr

/-! ## Completion records (Chapter 10) -/

/-- The sixteen status codes of a COMMAND_DONE record (R158), in the order of their codes in R195. -/
inductive CommandStatus where
  | ok
  | unknownCommand
  | badParameter
  | badState
  | busy
  | noStaging
  | inSchedule
  | badChange
  | slotFull
  | incomplete
  | swapArmed
  | notArmed
  | timeout
  | cancelled
  | readError
  | writeError
  deriving DecidableEq, Repr

/-- The reason of a BAD_CHANGE (R70, R71), in the order of their codes in R195; `none` is that of a status without one. -/
inductive ChangeReason where
  | none
  | field
  | closed
  | lane
  | channel
  | duplicate
  | collision
  | absent
  deriving DecidableEq, Repr

/-- The result fields of a COMMAND_DONE record (R158). -/
inductive CommandResult where
  | none
  /-- Free pool count: OPEN STREAM OK and NO_STAGING. -/
  | freePool (count : Nat)
  /-- CLOSE STREAM OK. -/
  | closed (retireIndex freePool : Nat)
  /-- RESTART STREAM OK. -/
  | ringIndex (index : Nat)
  /-- LOAD SCHEDULE OK. -/
  | placements (count : Nat)
  /-- LOAD SCHEDULE BAD_CHANGE, SLOT_FULL and READ_ERROR. -/
  | change (index : Nat) (reason : ChangeReason) (collidedWith : Option StreamId)
  /-- COMMIT SCHEDULE OK. -/
  | swapped (generation : Gen) (firstFrame : Option FrameNo)
  /-- COMMIT SCHEDULE INCOMPLETE. -/
  | lacking (stream : StreamId)
  /-- SET SENSE OK: bit k of `sense` for line k, bit m of `markers` for marker m. -/
  | levels (sense : List Bool) (markers : List Bool)
  /-- POST EVENT OK. -/
  | posted (entered : Bool)
  deriving DecidableEq, Repr

/-- The outcome of a block (R92, R95), in the order of their codes in R195. -/
inductive BlockStatus where
  | complete
  | truncated
  | aborted
  deriving DecidableEq, Repr

/-- A stream's fault cause (R46), in the order of their codes in R195. -/
inductive StreamFault where
  | badDescriptor
  | readError
  | writeError
  deriving DecidableEq, Repr

/-- The stop cause, when present (Section 2.5), in the order of their codes in 12.2. -/
inductive StopCause where
  | host
  | returnFault
  | engineFault
  deriving DecidableEq, Repr

/-- A BLOCK_DONE record (R95). -/
structure BlockDone where
  stream : StreamId
  ringIndex : Nat
  cookie : BitVec 16
  status : BlockStatus
  done : Nat
  /-- First and last frame, or absent when `done` is 0. -/
  frames : Option (FrameNo × FrameNo)
  fresh : Nat
  stale : Nat
  damaged : Nat
  missing : Nat
  retireIndex : Nat
  deriving DecidableEq, Repr

/-- The event kinds of 10.4, each with its fields. -/
inductive Event where
  | streamStarved (stream : StreamId) (frame : FrameNo)
  | streamResumed (stream : StreamId) (frame : FrameNo) (count : Nat)
  | streamOverrun (stream : StreamId) (frame : FrameNo)
  | streamRecovered (stream : StreamId) (frame : FrameNo) (count : Nat)
  | streamFault (stream : StreamId) (cause : StreamFault) (ringIndex : Nat)
  | linkDegraded (frame : FrameNo) (stationWord : Word)
  | linkRestored (frame : FrameNo) (count : Nat)
  | linkDown (cause : StopCause) (lastFrame : FrameNo) (badRun : Nat)
  /-- `stamp` is the frame number and the offset in µs, or `none` for the mark "no frame". -/
  | senseEdge (line : LineId) (direction : Edge) (stamp : Option (FrameNo × Nat)) (suppressed : Nat)
  | strayNotify (selector : Nat) (value : BitVec 16)
  | eventLoss (count : Nat)
  | hostPosted (code : Nat) (argument : Word)
  deriving DecidableEq, Repr

/-- A completion record (R165), less its pass mark, which is given when the record is written (R171). -/
inductive Record where
  | commandDone (command : Command) (status : CommandStatus) (result : CommandResult)
  | blockDone (block : BlockDone)
  | event (event : Event)
  deriving DecidableEq, Repr

/-! ## Completion Unit (R166) -/

/-- The holdoff timer (R175). -/
inductive HoldoffTimer where
  | stopped
  | running
  | expired
  deriving DecidableEq, Repr

/-- What the control area gives the Completion Unit at ENABLE (R183). -/
structure CompletionConfig where
  base : Addr
  size : Nat
  threshold : Nat
  /-- In µs. -/
  holdoff : Nat
  deriving DecidableEq, Repr

/-- What the Completion Unit holds (R166). The write in flight stands in the Port, and the interrupt line is computed
(`State.interruptLine`). -/
structure Completion where
  /-- Ring base and size, threshold and holdoff; absent before ENABLE (R178). -/
  config : Option CompletionConfig
  /-- The holding list, oldest first. -/
  holding : List Record
  /-- Places kept for commands. -/
  reservations : Nat
  produce : Nat
  acknowledge : Nat
  /-- Records written and not acknowledged. -/
  unacknowledged : Nat
  passMark : Bool
  /-- Event-loss count, 0 to 65535. -/
  lossCount : Nat
  timer : HoldoffTimer
  deriving DecidableEq, Repr

/-! ## Stream Table and the blocks that keep stream state for it (R37) -/

/-- A lane of the slot link, and the direction of a stream on it (Section 1, R61). -/
inductive Lane where
  | outLane
  | inLane
  deriving DecidableEq, Repr

/-- Underrun policy of an out-stream (R37). -/
inductive UnderrunPolicy where
  | repeat
  | fill
  deriving DecidableEq, Repr

/-- Tag mode of an in-stream (R37). -/
inductive TagMode where
  | plain
  | tagged
  deriving DecidableEq, Repr

/-- A stream's direction with the field that direction alone has (R37). -/
inductive StreamKind where
  | outStream (policy : UnderrunPolicy)
  | inStream (mode : TagMode)
  deriving DecidableEq, Repr

/-- The fields OPEN STREAM sets, present while a stream is not CLOSED (R37). -/
structure Shape where
  kind : StreamKind
  /-- C, 1 to 8. -/
  channels : Nat
  /-- P: 1, 2, 4, 8, 16, 32 or 64. -/
  period : Nat
  /-- h, 0 to P − 1. -/
  phase : Nat
  fillWord : Word
  /-- Staging depth in words. -/
  depth : Nat
  ringBase : Addr
  ringSize : Nat
  deriving DecidableEq, Repr

/-- The state of a stream (R38). -/
inductive StreamState where
  | closed
  | opened
  | live
  | faulted
  | quiescing
  deriving DecidableEq, Repr

/-- A sample in an out-stream's staging, with its block-end mark (R42). -/
structure Sample where
  value : Word
  blockEnd : Bool
  deriving DecidableEq, Repr

/-- The condition of an element (R121), in the order of their codes in R199. -/
inductive Condition where
  | fresh
  | stale
  | damaged
  | missing
  deriving DecidableEq, Repr

/-- An element in an in-stream's staging: its value, its channel, and the two marks of R122. Its words are computed
(`elementWords`). -/
structure Element where
  value : Word
  channel : Nat
  condition : Condition
  frame : FrameNo
  deriving DecidableEq, Repr

/-- An entry of a descriptor list: the descriptor as fetched, its ring index and its progress record (R92). -/
structure Entry where
  ringIndex : Nat
  buffer : Addr
  count : Nat
  report : Bool
  cookie : BitVec 16
  /-- Elements done. -/
  done : Nat
  firstFrame : Option FrameNo
  lastFrame : Option FrameNo
  fresh : Nat
  stale : Nat
  damaged : Nat
  missing : Nat
  /-- The finished mark with its status. -/
  finished : Option BlockStatus
  deriving DecidableEq, Repr

/-- A read or write cursor (R101, R127): the entry it names, by ring index, and how many of its samples have been fetched or
of its elements stored. -/
structure Cursor where
  ringIndex : Nat
  moved : Nat
  deriving DecidableEq, Repr

/-- The pending operation of a QUIESCING stream (R37). -/
inductive PendingOperation where
  | close
  | restart (ringIndex : Nat)
  deriving DecidableEq, Repr

/-- A stream context (R37). The marker binding is kept in `LineUnit.markers`. -/
structure Stream where
  state : StreamState
  /-- Present exactly while the stream is not CLOSED. -/
  shape : Option Shape
  /-- Staging queue of an out-stream, oldest first. -/
  samples : List Sample
  /-- Staging queue of an in-stream, oldest first. -/
  elements : List Element
  producer : Nat
  fetch : Nat
  retire : Nat
  /-- Descriptor list, head first, at most two entries. -/
  list : List Entry
  /-- A descriptor read is in flight (R90). -/
  descriptorInFlight : Bool
  /-- Read cursor (OUT) or write cursor (IN). -/
  cursor : Option Cursor
  /-- The data read (samples) or data write (elements) in flight. -/
  dataInFlight : Option Nat
  /-- Last sample of each channel of an out-stream (R112). -/
  lastSamples : List (Option Word)
  /-- Starvation run (OUT) or overrun run (IN): its flag and count. -/
  runFlag : Bool
  runCount : Nat
  faultCause : Option StreamFault
  pendingOperation : Option PendingOperation
  /-- Set from the finish of the drain (R53, R54) until the quiesce ends: from then on every retirement reports. -/
  drained : Bool
  deriving DecidableEq, Repr

/-- A CLOSED context: every field at the value of R60. -/
def Stream.reset : Stream where
  state := .closed
  shape := none
  samples := []
  elements := []
  producer := 0
  fetch := 0
  retire := 0
  list := []
  descriptorInFlight := false
  cursor := none
  dataInFlight := none
  lastSamples := []
  runFlag := false
  runCount := 0
  faultCause := none
  pendingOperation := none
  drained := false

/-! ## Schedule Unit (R61) -/

/-- A placement (R61). -/
structure Placement where
  lane : Lane
  slot : SlotId
  stream : StreamId
  channel : ChannelId
  deriving DecidableEq, Repr

/-- A bank: a set of placements, kept in rising order of `placementKey` with none repeated, so that equal banks are equal
lists. -/
abbrev Bank := List Placement

/-- The basis of a LOAD (R68). -/
inductive Basis where
  | empty
  | active
  | pending
  deriving DecidableEq, Repr

/-- A LOAD: none, held while the retiring mark is set (R84), or being performed with its working copy, where `next` is the
change index of the first entry of the read in flight (R69). -/
inductive Load where
  | none
  | held (address : Addr) (count : Nat) (basis : Basis)
  | performing (working : Bank) (address : Addr) (count next : Nat)
  deriving DecidableEq, Repr

/-- What the Schedule Unit holds (R61). -/
structure Schedule where
  active : Bank
  pending : Bank
  generation : Gen
  swapArmed : Bool
  retiring : Bool
  load : Load
  /-- The COMMIT outstanding for the armed swap (R76). -/
  commit : Option Command
  deriving DecidableEq, Repr

/-! ## Link Controller (Chapter 2) -/

/-- The link state (R21). -/
inductive LinkState where
  | unconfigured
  | stopped
  | waiting
  | running
  | stopping
  deriving DecidableEq, Repr

/-- Loop mode (Section 2.2). -/
inductive LoopMode where
  | external
  | internal
  deriving DecidableEq, Repr

/-- The link configuration (Section 2.2). -/
structure LinkConfig where
  /-- Frame period in µs. -/
  period : Nat
  mode : LoopMode
  /-- Fault threshold, 0 to 255. -/
  threshold : Nat
  idleFill : Word
  deriving DecidableEq, Repr

/-- What the Link Controller holds. -/
structure Link where
  state : LinkState
  /-- Absent in UNCONFIGURED. -/
  config : Option LinkConfig
  frame : FrameNo
  /-- The frame timer is running (R23). -/
  frameTimer : Bool
  /-- The trigger timeout running, in ms (R27). -/
  timeout : Option Nat
  stopCause : Option StopCause
  badRun : Nat
  corruptOut : Bool
  dropReturn : Bool
  /-- The outstanding LINK START. -/
  start : Option Command
  /-- The outstanding LINK STOP. -/
  stop : Option Command
  /-- The generation of the run's last frame started; none before frame 0 of the run (R2). -/
  runGeneration : Option Gen
  /-- The 53 words of the last frame started; none before any. -/
  outFrame : Option (List Word)
  /-- The last frame started is in transmission (R1). -/
  transmitting : Bool
  /-- INTERNAL loop mode has still to make the last frame's return arrival (R17). -/
  loopDue : Bool
  deriving DecidableEq, Repr

/-! ## Return Unit (1.4) -/

/-- An entry of the return window (1.4). `deadline` is the deadline timer's span in µs from the frame's frame start. -/
structure WindowEntry where
  frame : FrameNo
  generation : Gen
  deadline : Nat
  deriving DecidableEq, Repr

/-- What the Return Unit holds (R20). -/
structure ReturnUnit where
  /-- The return window, oldest first. -/
  window : List WindowEntry
  lastStation : Word
  deriving DecidableEq, Repr

/-! ## Line Unit (Chapter 8) -/

/-- Edge select of a sense line (R138), in the order of their codes in 12.4. -/
inductive EdgeSelect where
  | none
  | rising
  | falling
  | both
  deriving DecidableEq, Repr

/-- The record of a sense line (R138). -/
structure SenseLine where
  select : EdgeSelect
  /-- High when set. -/
  level : Bool
  frameMark : Bool
  suppressed : Nat
  deriving DecidableEq, Repr

/-- The binding of a marker line (R146). -/
structure Binding where
  stream : StreamId
  advance : Nat
  deriving DecidableEq, Repr

/-- A marker line (R146). -/
structure Marker where
  binding : Option Binding
  active : Bool
  deriving DecidableEq, Repr

/-- The trigger watch (R144). -/
structure Watch where
  line : LineId
  edge : Edge
  deriving DecidableEq, Repr

/-- A trigger report made and not yet taken (R144, R145). `current` is cleared when a later START is accepted, since an edge
before a START does not serve it (R27). -/
structure TriggerReport where
  line : LineId
  edge : Edge
  current : Bool
  deriving DecidableEq, Repr

/-- What the Line Unit holds (Chapter 8). -/
structure LineUnit where
  sense : Vector SenseLine 8
  markers : Vector Marker 4
  watch : Option Watch
  /-- Trigger reports made and not yet taken, oldest first. -/
  reports : List TriggerReport
  deriving DecidableEq, Repr

/-! ## The whole -/

/-- The state of the machine. -/
structure State where
  /-- The commands that are waiting, first in, first out. -/
  pending : List Instr
  host : HostWindow
  /-- The requests in flight, in the order issued (R182). -/
  port : List Request
  proc : Processor
  comp : Completion
  streams : Vector Stream 32
  /-- Free pool count (R41). -/
  freePool : Nat
  sched : Schedule
  link : Link
  ret : ReturnUnit
  lines : LineUnit
  /-- The model's own counter: how many DAMAGED resolutions there have been, which `Config.absentSlotWord` is applied to. -/
  freeSeq : Nat
  deriving DecidableEq, Repr

/-- Why a step stops the machine: never. Every command answers a next state, in every state. The engine's own FAULT is a state
of the machine (R181). -/
inductive Fault where
  deriving DecidableEq, Repr

/-- Why a step has no meaning for a command. -/
inductive Refusal where
  /-- Raised by `exec` for a command with no meaning yet. Safe. -/
  | notModelled (mnemonic : String)
  deriving DecidableEq, Repr

/-- The Command Processor after a reset (R164). -/
def Processor.reset : Processor where
  ring := none
  producer := 0
  consumer := 0
  state := .idle

/-- The Completion Unit after a reset (R178). -/
def Completion.reset : Completion where
  config := none
  holding := []
  reservations := 0
  produce := 0
  acknowledge := 0
  unacknowledged := 0
  passMark := true
  lossCount := 0
  timer := .stopped

/-- The Schedule Unit after a reset (R86). -/
def Schedule.reset : Schedule where
  active := []
  pending := []
  generation := 0
  swapArmed := false
  retiring := false
  load := .none
  commit := none

/-- The Link Controller after a reset (R35). -/
def Link.reset : Link where
  state := .unconfigured
  config := none
  frame := 0
  frameTimer := false
  timeout := none
  stopCause := none
  badRun := 0
  corruptOut := false
  dropReturn := false
  start := none
  stop := none
  runGeneration := none
  outFrame := none
  transmitting := false
  loopDue := false

/-- A sense line after a reset that finds it at the given level (R150). -/
def SenseLine.reset (level : Bool) : SenseLine where
  select := .none
  level := level
  frameMark := false
  suppressed := 0

/-- A marker line after a reset (R150). -/
def Marker.reset : Marker where
  binding := none
  active := false

/-- The machine right after reset: every field at the value its chapter states (R20, R35, R60, R86, R100, R119, R137, R150,
R164, R178, R189). DESIGN CHOICE (log entry 1): the reset pin is released, and every sense line is low. -/
def State.reset : State where
  pending := []
  host := { baseLow := 0, baseHigh := 0, engine := .off, lastFault := .none, resetHeld := false }
  port := []
  proc := Processor.reset
  comp := Completion.reset
  streams := Vector.replicate 32 Stream.reset
  freePool := 512
  sched := Schedule.reset
  link := Link.reset
  ret := { window := [], lastStation := 0 }
  lines :=
    { sense := Vector.replicate 8 (SenseLine.reset false), markers := Vector.replicate 4 Marker.reset, watch := none,
      reports := [] }
  freeSeq := 0

end Sys2Proof.Machine
end

