-- ==== Sys2Proof/Machine/Flags.lean ====
section
/-!
DEFINITION. What the manual derives from the state rather than holds: the interrupt line, the register window as the host reads
it, which requests are in flight, when a holding place is free, when a stream is due, and when two placements collide.
-/
namespace Sys2Proof.Machine

/-- The context of stream `i`. -/
def State.stream (s : State) (i : StreamId) : Stream := s.streams[i]

/-- Every stream, in ascending stream number (R106, R120). -/
def allStreams : List StreamId := List.finRange 32

/-! ## The engine as the host sees it -/

/-- The interrupt line (R176): asserted in FAULT, and in READY while the unacknowledged count is at least the threshold or the
holdoff timer is EXPIRED. -/
def State.interruptLine (s : State) : Bool :=
  match s.host.engine with
  | .fault => true
  | .ready =>
    (match s.comp.config with
      | some c => decide (c.threshold ≤ s.comp.unacknowledged)
      | none => false)
    || decide (s.comp.timer = .expired)
  | .off => false
  | .loading => false
  | .resetting => false

/-- Engine state encoding of 12.2. -/
def EngineState.code : EngineState → Nat
  | .off => 0
  | .loading => 1
  | .ready => 2
  | .fault => 3
  | .resetting => 4

/-- Link state encoding of 12.2. -/
def LinkState.code : LinkState → Nat
  | .unconfigured => 0
  | .stopped => 1
  | .waiting => 2
  | .running => 3
  | .stopping => 4

/-- Stop cause encoding of 12.2. -/
def StopCause.code : StopCause → Nat
  | .host => 1
  | .returnFault => 2
  | .engineFault => 3

/-- Stop cause encoding of 12.2, 0 when absent. -/
def stopCauseCode : Option StopCause → Nat
  | none => 0
  | some c => c.code

/-- Last fault cause encoding of 12.2. -/
def FaultCause.code : FaultCause → Nat
  | .none => 0
  | .controlRead => 1
  | .controlInvalid => 2
  | .commandRead => 3
  | .completionWrite => 4

/-- The engine status word (12.2, R179). -/
def State.statusWord (s : State) : Word :=
  place 0 s.host.engine.code ||| place 4 s.link.state.code ||| place 8 (stopCauseCode s.link.stopCause)
    ||| place 12 s.host.lastFault.code ||| place 16 (flag s.interruptLine)

/-- What a read of a word of the register window returns (R179, R192). A read changes nothing. -/
def State.readRegister (s : State) : Register → Word
  | .baseLow => s.host.baseLow
  | .baseHigh => s.host.baseHigh
  | .control => 0
  | .status => s.statusWord
  | .notify => 0

/-- The control-area base (R179). -/
def State.controlBase (s : State) : Addr := address s.host.baseLow s.host.baseHigh

/-! ## Requests in flight (R182) -/

/-- The request in flight with this tag. -/
def State.request (s : State) (tag : Requester) : Option Request :=
  s.port.find? fun r => decide (r.requester = tag)

/-- A request with this tag is in flight. -/
def State.inFlight (s : State) (tag : Requester) : Bool := (s.request tag).isSome

/-! ## Places in the holding list (R166 to R169) -/

/-- Places in use: records and reservations together (R166). -/
def State.placesInUse (s : State) : Nat := s.comp.holding.length + s.comp.reservations

/-- A retirement of the stream waits for holding space (R96): its head is finished and still in the list. -/
def Stream.retirementWaiting (c : Stream) : Bool :=
  match c.list with
  | [] => false
  | e :: _ => e.finished.isSome

/-- The lowest-numbered stream with a waiting retirement (R169). -/
def State.waitingStream (s : State) : Option StreamId :=
  allStreams.find? fun i => (s.stream i).retirementWaiting

/-- A place is free: the free places are 32 less the places in use (R166). -/
def State.freePlace (s : State) : Bool := decide (s.placesInUse < 32)

/-! ## Streams -/

/-- The lane of a stream's direction. -/
def StreamKind.lane : StreamKind → Lane
  | .outStream _ => .outLane
  | .inStream _ => .inLane

/-- Words per element: 1 in PLAIN mode, 2 in TAGGED mode (R122); a sample of an out-stream is one word. -/
def StreamKind.wordsPerElement : StreamKind → Nat
  | .outStream _ => 1
  | .inStream .plain => 1
  | .inStream .tagged => 2

/-- Words in the staging queue (R42). -/
def Stream.stagedWords (c : Stream) : Nat :=
  match c.shape with
  | none => 0
  | some sh => c.samples.length + sh.kind.wordsPerElement * c.elements.length

/-- The stream may issue requests to host memory (R38). -/
def Stream.mayIssue (c : Stream) : Bool := decide (c.state = .opened ∨ c.state = .live)

/-- A request of the stream is in flight (R38, R53). -/
def Stream.requestInFlight (c : Stream) : Bool := c.descriptorInFlight || c.dataInFlight.isSome

/-- The entry of the list that the cursor names, with the cursor's count (R101, R127). -/
def Stream.cursorEntry (c : Stream) : Option (Entry × Nat) :=
  match c.cursor with
  | none => none
  | some k => (c.list.find? fun e => decide (e.ringIndex = k.ringIndex)).map fun e => (e, k.moved)

/-- The cursor at the entry behind the one with this ring index, or absent when there is none (R104, R129). -/
def cursorBehind (ringIndex : Nat) : List Entry → Option Cursor
  | [] => none
  | e :: rest =>
    if e.ringIndex = ringIndex then rest.head?.map fun n => { ringIndex := n.ringIndex, moved := 0 }
    else cursorBehind ringIndex rest

/-- The cursor over the entries left in a list: where it stands while the entry it names is one of them; else at the first of them
with nothing moved, or absent when none is left. A cursor names an entry of the list, and is absent when the list is empty (R101,
R127). -/
def cursorIn (left : List Entry) (k : Cursor) : Option Cursor :=
  if left.any fun e => decide (e.ringIndex = k.ringIndex) then some k
  else left.head?.map fun e => { ringIndex := e.ringIndex, moved := 0 }

/-- A stream of this shape is due in frame `f` by its period and phase (Section 1, "turn"). -/
def Shape.dueIn (sh : Shape) (f : FrameNo) : Bool := decide (f.toNat % sh.period = sh.phase)

/-! ## Banks (R61 to R65) -/

/-- The number that orders the placements of a bank. -/
def placementKey (p : Placement) : Nat :=
  (((match p.lane with | .outLane => 0 | .inLane => 1) * 48 + p.slot.val) * 32 + p.stream.val) * 8 + p.channel.val

/-- The bank holds a placement naming the stream. -/
def Bank.names (b : Bank) (i : StreamId) : Bool := b.any fun p => decide (p.stream = i)

/-- The slot of channel `k` of stream `i` on a lane, where the bank places it. -/
def Bank.slotOf (b : Bank) (lane : Lane) (i : StreamId) (k : Nat) : Option SlotId :=
  (b.find? fun p => decide (p.lane = lane ∧ p.stream = i ∧ p.channel.val = k)).map (·.slot)

/-- The bank places channel `k` of stream `i` (on any lane-slot). -/
def Bank.places (b : Bank) (i : StreamId) (k : Nat) : Bool :=
  b.any fun p => decide (p.stream = i ∧ p.channel.val = k)

/-- The collision rule (R64) on two periods and phases. -/
def collide (p1 h1 p2 h2 : Nat) : Bool := decide (h1 % min p1 p2 = h2 % min p1 p2)

/-- The streams `i` and `j` collide on a lane-slot (R64). A stream without a shape is named by no bank. -/
def State.streamsCollide (s : State) (i j : StreamId) : Bool :=
  match (s.stream i).shape, (s.stream j).shape with
  | some a, some b => collide a.period a.phase b.period b.phase
  | _, _ => false

/-- A channel of stream `i` below C has no placement in the bank (R65). -/
def State.lacksChannel (s : State) (b : Bank) (i : StreamId) : Bool :=
  match (s.stream i).shape with
  | none => false
  | some sh => (List.range sh.channels).any fun k => !b.places i k

/-- The lowest-numbered stream named by the bank that lacks a placement for one of its channels; none when the bank is
complete (R65, R74). -/
def State.lowestLacking (s : State) (b : Bank) : Option StreamId :=
  allStreams.find? fun i => b.names i && s.lacksChannel b i

/-- The bank of a frame's generation (R83): the active bank for the current generation; while the retiring mark is set, the
pending bank for the one before. The window holds no entry of any other. -/
def State.bankOf (s : State) (g : Gen) : Bank :=
  if g = s.sched.generation then s.sched.active
  else if s.sched.retiring ∧ g + 1 = s.sched.generation then s.sched.pending
  else []

end Sys2Proof.Machine
end

