-- ==== Sys2Proof/Machine/Records.lean ====
section
/-!
DEFINITION. The layouts of Chapter 12 that the engine writes: completion records (R195), the stream snapshot (R198), the TAGGED
element (R199) and the words of an outbound frame (R200). Bits no table assigns are 0 (R191).
-/
namespace Sys2Proof.Machine

/-- Status codes of R195. -/
def CommandStatus.code : CommandStatus → Nat
  | .ok => 0
  | .unknownCommand => 1
  | .badParameter => 2
  | .badState => 3
  | .busy => 4
  | .noStaging => 5
  | .inSchedule => 6
  | .badChange => 7
  | .slotFull => 8
  | .incomplete => 9
  | .swapArmed => 10
  | .notArmed => 11
  | .timeout => 12
  | .cancelled => 13
  | .readError => 14
  | .writeError => 15

/-- Reason codes of R195. -/
def ChangeReason.code : ChangeReason → Nat
  | .none => 0
  | .field => 1
  | .closed => 2
  | .lane => 3
  | .channel => 4
  | .duplicate => 5
  | .collision => 6
  | .absent => 7

/-- Block status codes of R195. -/
def BlockStatus.code : BlockStatus → Nat
  | .complete => 0
  | .truncated => 1
  | .aborted => 2

/-- Stream fault cause codes of R195. -/
def StreamFault.code : StreamFault → Nat
  | .badDescriptor => 1
  | .readError => 2
  | .writeError => 3

/-- Edge codes of 12.4 and R195. -/
def edgeCode : Edge → Nat
  | .rising => 0
  | .falling => 1

/-- Condition codes of R199. -/
def Condition.code : Condition → Nat
  | .fresh => 0
  | .stale => 1
  | .damaged => 2
  | .missing => 3

/-- Words 3 and 4 of a COMMAND_DONE record (R195). -/
def CommandResult.words : CommandResult → Word × Word
  | .none => (0, 0)
  | .freePool n => (place 0 n, 0)
  | .closed r n => (place 0 r, place 0 n)
  | .ringIndex n => (place 0 n, 0)
  | .placements n => (place 0 n, 0)
  | .change n reason j =>
    (place 0 n, place 0 reason.code ||| (match j with | some j => place 8 j.val | Option.none => 0))
  | .swapped g Option.none => (place 0 g.toNat, 0)
  | .swapped g (some f) => (place 0 g.toNat ||| place 8 1, f)
  | .lacking i => (place 0 i.val, 0)
  | .levels sense markers => (place 0 (packBits sense) ||| place 8 (packBits markers), 0)
  | .posted b => (place 0 (flag b), 0)

/-- The kind code and words 1 to 4 of an EVENT record (R195). -/
def Event.words : Event → Nat × Word × Word × Word × Word
  | .streamStarved i f => (1, place 0 i.val, f, 0, 0)
  | .streamResumed i f n => (2, place 0 i.val, f, place 0 n, 0)
  | .streamOverrun i f => (3, place 0 i.val, f, 0, 0)
  | .streamRecovered i f n => (4, place 0 i.val, f, place 0 n, 0)
  | .streamFault i c n => (5, place 0 i.val ||| place 8 c.code, place 0 n, 0, 0)
  | .linkDegraded f w => (6, 0, f, w, 0)
  | .linkRestored f n => (7, 0, f, place 0 n, 0)
  | .linkDown c f n => (8, place 0 c.code, f, place 0 n, 0)
  | .senseEdge k e none n => (9, place 0 k.val ||| place 8 (edgeCode e), 0, 0, place 0 n)
  | .senseEdge k e (some (f, o)) n =>
    (9, place 0 k.val ||| place 8 (edgeCode e) ||| place 16 1, f, place 0 o, place 0 n)
  | .strayNotify sel v => (10, place 0 sel, place 0 v.toNat, 0, 0)
  | .eventLoss n => (11, 0, 0, place 0 n, 0)
  | .hostPosted c a => (12, place 0 c, a, 0, 0)

/-- Both frame words and the presence bit of a BLOCK_DONE record (R195). -/
def frameWordsOf : Option (FrameNo × FrameNo) → Word × Word × Word
  | none => (0, 0, 0)
  | some (a, b) => (a, b, place 0 1)

/-- The eight words of a completion record, written with the pass mark given (R171, R195). -/
def Record.words (pass : Bool) : Record → List Word
  | .commandDone c status result =>
    [place 0 1 ||| place 7 (flag pass) ||| place 16 c.code.toNat,
     place 0 c.ringIndex ||| place 16 c.tag.toNat,
     place 0 status.code, result.words.1, result.words.2, 0, 0, 0]
  | .blockDone b =>
    [place 0 2 ||| place 7 (flag pass) ||| place 16 b.stream.val ||| place 24 b.status.code,
     place 0 b.ringIndex ||| place 16 b.cookie.toNat,
     place 0 b.done ||| place 16 b.retireIndex,
     (frameWordsOf b.frames).1, (frameWordsOf b.frames).2.1,
     place 0 b.fresh ||| place 16 b.stale, place 0 b.damaged ||| place 16 b.missing, (frameWordsOf b.frames).2.2]
  | .event e =>
    [place 0 3 ||| place 7 (flag pass) ||| place 8 e.words.1,
     e.words.2.1, e.words.2.2.1, e.words.2.2.2.1, e.words.2.2.2.2, 0, 0, 0]

/-- The tag of a TAGGED element (R199). -/
def elementTag (e : Element) : Word :=
  place 0 (e.frame.toNat % 2 ^ 16) ||| place 16 e.channel ||| place 24 e.condition.code

/-- The words of an element: the value alone in PLAIN mode, the value and the tag in TAGGED mode (R122, R199). -/
def elementWords : TagMode → Element → List Word
  | .plain, e => [e.value]
  | .tagged, e => [e.value, elementTag e]

/-- The words of a frame's fresh marks or of a return's valid marks: marks 0 to 31, then marks 32 to 47 (R200). -/
def markWords (marks : List Bool) : List Word :=
  [BitVec.ofNat 32 (packBits (marks.take 32)), BitVec.ofNat 32 (packBits (marks.drop 32))]

/-- The second word of an outbound frame (R2, R200). -/
def generationWord (g : Gen) (first newGeneration : Bool) : Word :=
  place 0 g.toNat ||| place 8 (flag first) ||| place 9 (flag newGeneration)

/-- The 53 words of an outbound frame (R200), the check word inverted when CORRUPT_OUT acts (R18). `slots` holds slot words 0
to 47, each with its fresh mark. -/
def frameWords (f : FrameNo) (genWord : Word) (slots : List (Word × Bool)) (corrupt : Bool) : List Word :=
  let body := [f, genWord] ++ markWords (slots.map (·.2)) ++ slots.map (·.1)
  body ++ [if corrupt then ~~~ checkWord body else checkWord body]

/-! ## Words in host memory (R191) -/

/-- The four bytes of a word as they stand in host memory, the lowest address first: the least significant byte stands there
(R191). -/
def wordBytes (w : Word) : List Byte :=
  [BitVec.ofNat 8 (field w 0 8), BitVec.ofNat 8 (field w 8 8), BitVec.ofNat 8 (field w 16 8), BitVec.ofNat 8 (field w 24 8)]

/-- The bytes of a sequence of words: word k stands from byte offset 4k (R191). -/
def recordBytes (words : List Word) : List Byte := words.flatMap wordBytes

/-- The word that four bytes make, the first of them the least significant (R191). -/
def wordOfBytes (b0 b1 b2 b3 : Byte) : Word := place 0 b0.toNat ||| place 8 b1.toNat ||| place 16 b2.toNat ||| place 24 b3.toNat

/-- The words that a sequence of bytes makes, four bytes to a word (R191). -/
def recordWords : List Byte → List Word
  | b0 :: b1 :: b2 :: b3 :: rest => wordOfBytes b0 b1 b2 b3 :: recordWords rest
  | _ => []

/-- The host byte addresses from `a` upwards that `n` bytes take. -/
def byteAddresses (a : Addr) (n : Nat) : List Addr := (List.range n).map fun k => hostAddress (a.toNat + k)

/-- The bytes that a write leaves in host memory, each at its address; a read leaves none (R182, R191). -/
def Request.bytesWritten (q : Request) : List (Addr × Byte) :=
  match q.transfer with
  | .read _ => []
  | .write words => (byteAddresses q.address (4 * words.length)).zip (recordBytes words)

/-- The words with which host memory, holding the bytes given, answers a read (R182, R191); a write is answered without any. The
rows of the answers carry these words (log entry 6). -/
def Request.wordsRead (q : Request) (memory : Addr → Byte) : List Word :=
  match q.transfer with
  | .read n => recordWords ((byteAddresses q.address (4 * n)).map memory)
  | .write _ => []

/-! ## The stream snapshot (R198) -/

/-- Stream state codes of R198; QUIESCING has none there, and is a free value (log entry 5). -/
def StreamState.code : StreamState → Nat
  | .closed => 0
  | .opened => 1
  | .live => 2
  | .faulted => 3
  | .quiescing => Config.quiescingStateCode

/-- Direction code and policy or tag-mode code of 12.4. -/
def StreamKind.codes : StreamKind → Nat × Nat
  | .outStream .repeat => (0, 0)
  | .outStream .fill => (0, 1)
  | .inStream .plain => (1, 0)
  | .inStream .tagged => (1, 1)

/-- Words 2 to 7 of a snapshot: the shape, fill word, staging and ring, each 0 for a CLOSED stream (R191, R198). -/
def shapeWords (c : Stream) : List Word :=
  match c.shape with
  | none => [0, 0, 0, 0, 0, 0]
  | some sh =>
    [place 0 sh.kind.codes.1 ||| place 8 sh.channels ||| place 16 sh.period ||| place 24 sh.phase,
     place 0 sh.kind.codes.2 ||| place 8 sh.depth ||| place 16 c.stagedWords,
     sh.fillWord, lowWord sh.ringBase, highWord sh.ringBase, place 0 sh.ringSize]

/-- The marker line bound to stream `i`, with its advance (R146). -/
def State.markerOf (s : State) (i : StreamId) : Option (MarkerId × Nat) :=
  (List.finRange 4).findSome? fun m =>
    match s.lines.markers[m].binding with
    | some b => if b.stream = i then some (m, b.advance) else none
    | none => none

/-- Snapshot word 11: the marker binding (R198). -/
def markerWord : Option (MarkerId × Nat) → Word
  | none => 0
  | some (m, a) => place 0 1 ||| place 8 m.val ||| place 16 a

/-- The sixteen words of a snapshot of stream `i` (R58, R198). -/
def State.snapshot (s : State) (i : StreamId) : List Word :=
  let c := s.stream i
  [place 0 c.state.code, 0]
  ++ shapeWords c
  ++ [place 0 c.producer ||| place 16 c.fetch,
      place 0 c.retire ||| place 16 c.list.length ||| place 24 (flag c.retirementWaiting) ||| place 25 (flag c.dataInFlight.isSome),
      (match c.list with | [] => 0 | e :: _ => place 0 e.done),
      markerWord (s.markerOf i),
      place 0 (flag c.runFlag) ||| place 16 c.runCount,
      (match c.faultCause with | none => 0 | some f => place 0 f.code),
      place 0 (flag (s.sched.active.names i)) ||| place 1 (flag (s.sched.pending.names i)),
      0]

end Sys2Proof.Machine
end

