-- ==== Sys2Proof/Machine/Ops.lean ====
section
/-!
DEFINITION. The operations that the meanings share: the Memory Request Port, the holding list, the engine's entry to FAULT and
the two resets, the swap, and stream faults.
-/
namespace Sys2Proof.Machine

/-- What a meaning answers. -/
abbrev Result := Host.Outcome State Fault Refusal

/-- The state with the context of stream `i` replaced. -/
def State.setStream (s : State) (i : StreamId) (c : Stream) : State := { s with streams := s.streams.set i c }

/-! ## The Memory Request Port (R182) -/

/-- The Port issues a request and holds it until its answer. -/
def State.issue (s : State) (tag : Requester) (a : Addr) (t : Transfer) : State :=
  { s with port := s.port ++ [{ requester := tag, address := a, transfer := t }] }

/-- The request with this tag has its answer and is in flight no longer. -/
def State.answered (s : State) (tag : Requester) : State :=
  { s with port := s.port.filter fun r => !decide (r.requester = tag) }

/-! ## The holding list (R165 to R168) -/

/-- A record enters the holding list at its tail (R166). -/
def State.enter (s : State) (r : Record) : State := { s with comp.holding := s.comp.holding ++ [r] }

/-- An event is presented: it takes a free place, or is dropped and counted (R167, R168). Outside READY it neither enters nor
counts as lost (R165). -/
def State.present (s : State) (e : Event) : State :=
  if s.host.engine = .ready then
    if s.freePlace then s.enter (.event e)
    else { s with comp.lossCount := countUp s.comp.lossCount }
  else s

/-- A notify that cannot be acted on presents STRAY_NOTIFY with its selector and value (R174). -/
def State.stray (s : State) (selector : Nat) (value : BitVec 16) : State := s.present (.strayNotify selector value)

/-- A place is reserved for a command (R151, R167). -/
def State.reserve (s : State) : State := { s with comp.reservations := s.comp.reservations + 1 }

/-- A command completes: its COMMAND_DONE record fills the reservation it carries (R158, R167). -/
def State.complete (s : State) (c : Command) (status : CommandStatus) (result : CommandResult) : State :=
  { s with
    comp.holding := s.comp.holding ++ [.commandDone c status result]
    comp.reservations := s.comp.reservations - 1 }

/-- A command ends at once, or a held command ends: its record fills the processor's reservation, and the processor returns to
IDLE (R156). -/
def State.endCommand (s : State) (c : Command) (status : CommandStatus) (result : CommandResult) : State :=
  { s.complete c status result with proc.state := .idle }

/-- A refusal, or any end at once without a result field. -/
def State.endPlain (s : State) (c : Command) (status : CommandStatus) : State := s.endCommand c status .none

/-! ## Looking for a command (R153) -/

/-- The processor has a place for the record at the consumer index: it issues the 32-byte read and enters READING (R153,
R154). -/
def State.readCommand (s : State) : State :=
  match s.proc.ring with
  | none => s
  | some ring =>
    ({ s.reserve with proc.state := .reading } : State).issue .commandProcessor
      (hostAddress (ring.base.toNat + 32 * s.proc.consumer)) (.read 8)

/-- The Command Processor begins to take the record at the consumer index, or waits for a place (R153). -/
def State.beginCommand (s : State) : State :=
  if s.freePlace then s.readCommand else { s with proc.state := .waitingPlace }

/-- The conditions of R153 are looked at: the engine READY with its command ring, the processor IDLE, a record posted. Each notify with
selector 0 looks in its own step, and so does each end of a command, after its record has filled its place (R153, R156). -/
def State.lookForCommand (s : State) : State :=
  if s.host.engine = .ready ∧ s.proc.ring.isSome ∧ s.proc.state = .idle ∧ s.proc.consumer ≠ s.proc.producer then s.beginCommand
  else s

/-- A held command ends, and the processor, IDLE again, looks for the next record in the same step (R153, R156). -/
def State.endHeld (s : State) (c : Command) (status : CommandStatus) (result : CommandResult) : State :=
  (s.endCommand c status result).lookForCommand

/-! ## Engine fault (R185, R186) -/

/-- Every marker output goes inactive, and every binding is kept (R148). -/
def State.markersOff (s : State) : State :=
  { s with lines.markers := Vector.ofFn fun m => { s.lines.markers[m] with active := false } }

/-- What the Link Controller does at entry to FAULT (R34). The frame in transmission finishes, and the link passes to STOPPED
when it has. -/
def Link.atFault (k : Link) : Link :=
  match k.state with
  | .unconfigured => k
  | .stopped => k
  | .waiting => { k with state := .stopped, timeout := none, stopCause := some .engineFault }
  | .running =>
    { k with state := if k.transmitting then .running else .stopped, frameTimer := false, stopCause := some .engineFault }
  | .stopping =>
    { k with state := if k.transmitting then .stopping else .stopped, frameTimer := false, stopCause := some .engineFault }

/-- The engine enters FAULT (R185), and every block acts on the entry as R186 gathers: the link stops (R34), the return window
is abandoned (R16) and its notice clears the retiring mark (R82, R85), a LOAD is abandoned (R73), the trigger watch ends and the
markers go inactive (R149). Everything else is kept as it stands. A WAITING_PLACE processor keeps its state, and its claim is
withdrawn in that no place is handed on in FAULT (R162, R177; DESIGN CHOICE, log entry 28). -/
def State.enterFault (s : State) (cause : FaultCause) : State :=
  { s.markersOff with
    host.engine := .fault
    host.lastFault := cause
    link := s.link.atFault
    ret.window := []
    sched.retiring := false
    sched.load := .none
    lines.watch := none }

/-! ## Resets (R187 to R189) -/

/-- Every sense line takes its values at a soft reset; the level is the line's own and no edge (R150). -/
def State.senseReset (s : State) : State :=
  { s with lines.sense := Vector.ofFn fun k => SenseLine.reset s.lines.sense[k].level }

/-- The engine enters OFF from RESETTING: the blocks that wait for OFF take their reset values (R188). The base words and the
last fault cause are kept. -/
def State.enterOff (s : State) : State :=
  { s with
    host.engine := .off
    port := []
    proc := Processor.reset
    comp := Completion.reset
    streams := Vector.replicate 32 Stream.reset
    freePool := 512
    sched := Schedule.reset
    ret := { window := [], lastStation := 0 }
    lines.markers := Vector.replicate 4 Marker.reset }

/-- The engine enters OFF when the Port has no request in flight (R188). -/
def State.offWhenQuiet (s : State) : State := if s.port = [] then s.enterOff else s

/-- A RESET action takes the engine into RESETTING (R187): the values of R35, R16, R73, R150 and R178 are taken in that step. -/
def State.enterResetting (s : State) : State :=
  { s.senseReset.markersOff with
    host.engine := .resetting
    link := Link.reset
    ret.window := []
    sched.load := .none
    sched.retiring := false
    lines.watch := none
    lines.reports := []
    comp.timer := .stopped }

/-- While RESETTING, the Port discards the answer to a request (R182, R188). -/
def State.discardInResetting (s : State) (tag : Requester) : State := (s.answered tag).offWhenQuiet

/-- An answer of the host bus with a tag, for the rows that take one. Without a request of that tag in flight the host bus
answers nothing (R182), and nothing changes (DESIGN CHOICE, log entry 8). In RESETTING the Port discards the answer (R188).
Otherwise `k` takes it, with the request and the state in which it is in flight no longer. -/
def State.onAnswer (s : State) (tag : Requester) (k : Request → State → State) : Result :=
  .next
    (match s.request tag with
    | none => s
    | some r => if s.host.engine = .resetting then s.discardInResetting tag else k r (s.answered tag))

/-! ## The swap (R79) -/

/-- How a swap moves one stream's state (R39): OPEN and named by the new active bank becomes LIVE, which clears an out-stream's
run (R114) and leaves an in-stream's (R125); LIVE and not named becomes OPEN. -/
def moveAtSwap (active : Bank) (i : StreamId) (c : Stream) : Stream :=
  match c.state with
  | .closed => c
  | .opened =>
    if active.names i then
      match c.shape with
      | none => { c with state := .live }
      | some sh =>
        match sh.kind with
        | .outStream _ => { c with state := .live, runFlag := false, runCount := 0 }
        | .inStream _ => { c with state := .live }
    else c
  | .live => if active.names i then c else { c with state := .opened }
  | .faulted => c
  | .quiescing => c

/-- The return window holds an entry of generation `g`. -/
def State.windowHolds (s : State) (g : Gen) : Bool := s.ret.window.any fun e => decide (e.generation = g)

/-- A swap (R79): the banks exchange, the generation advances, the armed flag clears, stream states move, and the retiring mark
is set when the window holds an entry of the old generation (R82). -/
def State.swap (s : State) : State :=
  { s with
    streams := Vector.ofFn fun i => moveAtSwap s.sched.pending i s.streams[i]
    sched.active := s.sched.pending
    sched.pending := s.sched.active
    sched.generation := s.sched.generation + 1
    sched.swapArmed := false
    sched.retiring := s.windowHolds s.sched.generation }

/-- An armed swap is performed, and the COMMIT outstanding for it completes OK with the new generation and, at a round start,
the first frame (R77, R78). Without an armed swap nothing happens. -/
def State.performArmedSwap (s : State) (firstFrame : Option FrameNo) : State :=
  if s.sched.swapArmed then
    match s.sched.commit with
    | none => s.swap
    | some c =>
      ({ s.swap with sched.commit := none } : State).complete c .ok
        (.swapped (s.sched.generation + 1) firstFrame)
  else s

/-! ## Stream faults (R46 to R49) -/

/-- The Stream Table takes a reported cause (R47, R48, R49): an OPEN or LIVE stream becomes FAULTED with the cause; a QUIESCING
one without a cause records it; STREAM_FAULT is presented when a cause becomes present. -/
def State.faultStream (s : State) (i : StreamId) (cause : StreamFault) (ringIndex : Nat) : State :=
  let c := s.stream i
  match c.state with
  | .closed => s
  | .opened =>
    (s.setStream i { c with state := .faulted, faultCause := some cause }).present (.streamFault i cause ringIndex)
  | .live =>
    (s.setStream i { c with state := .faulted, faultCause := some cause }).present (.streamFault i cause ringIndex)
  | .faulted => s
  | .quiescing =>
    if c.faultCause = none then
      (s.setStream i { c with faultCause := some cause }).present (.streamFault i cause ringIndex)
    else s

end Sys2Proof.Machine
end

