-- ==== Sys2Proof/Machine/Operands.lean ====
section
/-!
DEFINITION. The operand forms: the fields of command records (12.4), of the control area (R193), of descriptors (R196) and of
change entries (12.7), each judged on its whole width (R194). A function that checks answers none where a check fails.
-/
namespace Sys2Proof.Machine

/-- Block and command ring sizes: a power of two from 4 to 1024 (R44, 11.4). -/
def ringSizes : List Nat := [4, 8, 16, 32, 64, 128, 256, 512, 1024]

/-- Completion ring sizes: a power of two from 4 to 4096 (11.4). -/
def completionRingSizes : List Nat := ringSizes ++ [2048, 4096]

/-- Stream periods (R44). -/
def periods : List Nat := [1, 2, 4, 8, 16, 32, 64]

/-- Staging depths (R44). -/
def stagingDepths : List Nat := [8, 16, 32, 64, 128]

/-- The stream with this number, when it is not above 31. -/
def streamOf (n : Nat) : Option StreamId := if h : n < 32 then some ⟨n, h⟩ else none

/-! ## Control area (11.4, R193) -/

/-- The six fields of the control area, when every one passes the table of 11.4. -/
def controlFields (ws : Vector Word 8) : Option (Ring × CompletionConfig) :=
  let commandBase := address ws[0] ws[1]
  let completionBase := address ws[2] ws[3]
  let threshold := field ws[6] 0 8
  if commandBase.toNat % 32 = 0 ∧ completionBase.toNat % 32 = 0 ∧ ws[4].toNat ∈ ringSizes
      ∧ ws[5].toNat ∈ completionRingSizes ∧ 1 ≤ threshold then
    some ({ base := commandBase, size := ws[4].toNat },
      { base := completionBase, size := ws[5].toNat, threshold := threshold, holdoff := field ws[6] 16 16 })
  else none

/-! ## Link commands -/

/-- The four fields of LINK CONFIGURE (R22). -/
def linkConfigFields (r : CommandRecord) : Option LinkConfig :=
  if 80 ≤ r.w1.toNat ∧ r.w1.toNat ≤ 10000 ∧ r.w3.toNat ≤ 255 then
    if r.w2 = 0 then some { period := r.w1.toNat, mode := .external, threshold := r.w3.toNat, idleFill := r.w4 }
    else if r.w2 = 1 then some { period := r.w1.toNat, mode := .internal, threshold := r.w3.toNat, idleFill := r.w4 }
    else none
  else none

/-- LINK START carries a trigger (word 1 bit 0). -/
def triggerPresent (r : CommandRecord) : Bool := r.w1.getLsbD 0

/-- The trigger's line and edge (R25), when a present trigger passes its check. -/
def triggerFields (r : CommandRecord) : Option Watch :=
  if h : field r.w1 8 8 < 8 then
    if field r.w1 16 8 = 0 then some { line := ⟨field r.w1 8 8, h⟩, edge := .rising }
    else if field r.w1 16 8 = 1 then some { line := ⟨field r.w1 8 8, h⟩, edge := .falling }
    else none
  else none

/-- The timeout in ms, or none when it is 0 (R25). -/
def timeoutField (r : CommandRecord) : Option Nat :=
  if field r.w2 0 16 = 0 then none else some (field r.w2 0 16)

/-! ## Stream commands -/

/-- The stream field of a stream command: word 1 bits 7:0. -/
def streamField (r : CommandRecord) : Option StreamId := streamOf (field r.w1 0 8)

/-- Direction with policy or tag mode (R44). -/
def kindFields (r : CommandRecord) : Option StreamKind :=
  let direction := field r.w1 8 8
  let mode := field r.w2 8 8
  if direction = 0 then
    if mode = 0 then some (.outStream .repeat) else if mode = 1 then some (.outStream .fill) else none
  else if direction = 1 then
    if mode = 0 then some (.inStream .plain) else if mode = 1 then some (.inStream .tagged) else none
  else none

/-- The shape that OPEN STREAM carries, when every field of it passes R44. -/
def shapeFields (r : CommandRecord) : Option Shape :=
  match kindFields r with
  | none => none
  | some kind =>
    let channels := field r.w1 16 8
    let period := field r.w1 24 8
    let phase := field r.w2 0 8
    let depth := field r.w2 16 8
    let base := address r.w5 r.w6
    if 1 ≤ channels ∧ channels ≤ 8 ∧ period ∈ periods ∧ phase < period ∧ depth ∈ stagingDepths
        ∧ 2 * (channels * kind.wordsPerElement) ≤ depth ∧ base.toNat % 16 = 0 ∧ r.w7.toNat ∈ ringSizes then
      some { kind := kind, channels := channels, period := period, phase := phase, fillWord := r.w4, depth := depth,
             ringBase := base, ringSize := r.w7.toNat }
    else none

/-- The marker that OPEN STREAM carries (R44): an outer none fails the check; an inner none is a marker that is absent. -/
def markerFields (r : CommandRecord) : Option (Option (MarkerId × Nat)) :=
  if r.w3.getLsbD 0 then
    if h : field r.w3 8 8 < 4 then
      if field r.w3 16 8 ≤ 3 then some (some (⟨field r.w3 8 8, h⟩, field r.w3 16 8)) else none
    else none
  else some none

/-- The stream and ring index of RESTART STREAM, with the checks made before its state check (R51). -/
def restartFields (r : CommandRecord) : Option (StreamId × Nat) :=
  match streamField r with
  | none => none
  | some i => if r.w2.toNat ≤ 1023 then some (i, r.w2.toNat) else none

/-- The stream and snapshot address of QUERY STREAM (R58). -/
def queryFields (r : CommandRecord) : Option (StreamId × Addr) :=
  match streamField r with
  | none => none
  | some i => if (address r.w2 r.w3).toNat % 64 = 0 then some (i, address r.w2 r.w3) else none

/-! ## Schedule commands -/

/-- The basis of a LOAD (12.4). -/
def basisOf (w : Word) : Option Basis :=
  if w = 0 then some .empty else if w = 1 then some .active else if w = 2 then some .pending else none

/-- List address, change count and basis of LOAD SCHEDULE (R68). -/
def loadFields (r : CommandRecord) : Option (Addr × Nat × Basis) :=
  match basisOf r.w4 with
  | none => none
  | some basis =>
    if 1 ≤ r.w3.toNat ∧ r.w3.toNat ≤ 512 ∧ (address r.w1 r.w2).toNat % 4 = 0 then
      some (address r.w1 r.w2, r.w3.toNat, basis)
    else none

/-- The lane field of a change entry (12.7). -/
def laneOf (n : Nat) : Option Lane := if n = 0 then some .outLane else if n = 1 then some .inLane else none

/-- The placement that a change entry names, when lane, slot, stream and channel are in range (R197). -/
def changePlacement (w : Word) : Option Placement :=
  match laneOf (field w 24 4) with
  | none => none
  | some lane =>
    if hs : field w 0 8 < 48 then
      if hi : field w 8 8 < 32 then
        if hc : field w 16 8 < 8 then
          some { lane := lane, slot := ⟨field w 0 8, hs⟩, stream := ⟨field w 8 8, hi⟩, channel := ⟨field w 16 8, hc⟩ }
        else none
      else none
    else none

/-- The action of a change entry (12.7): 1 PLACE, 2 CLEAR; any other fails check 1 (R197). -/
def changeAction (w : Word) : Nat := field w 28 4

/-! ## Line and test commands -/

/-- The edge select with this code (12.4). -/
def selectOf (n : Nat) : Option EdgeSelect :=
  if n = 0 then some .none else if n = 1 then some .rising else if n = 2 then some .falling
  else if n = 3 then some .both else none

/-- The edge select of line `k`: word 1 bits 4k + 3 to 4k. -/
def selectField (r : CommandRecord) (k : LineId) : Option EdgeSelect := selectOf (field r.w1 (4 * k.val) 4)

/-- Every one of the eight selects is in range (R139). -/
def selectsValid (r : CommandRecord) : Bool := (List.finRange 8).all fun k => (selectField r k).isSome

/-! ## Descriptors (R87, R196) -/

/-- The entry that a fetched descriptor makes, with a new progress record (R92). -/
def descriptorEntry (ws : Vector Word 4) (ringIndex : Nat) : Entry where
  ringIndex := ringIndex
  buffer := address ws[0] ws[1]
  count := field ws[2] 0 16
  report := ws[3].getLsbD 0
  cookie := BitVec.ofNat 16 (field ws[2] 16 16)
  done := 0
  firstFrame := none
  lastFrame := none
  fresh := 0
  stale := 0
  damaged := 0
  missing := 0
  finished := none

/-- The checks of R91: an element count above 0 and a buffer address that is a multiple of 4. -/
def descriptorValid (ws : Vector Word 4) : Bool :=
  decide (field ws[2] 0 16 ≠ 0) && decide (field ws[0] 0 2 = 0)

end Sys2Proof.Machine
end

