-- ==== Sys2Proof/Decode.lean ====
section
/-!
DEFINITION. The commands that words spell. spec/opcode_table.json gives no row any bits, so no word of the table's numbering
spells a command and `decodeTableWord` answers none. What the manual does encode stands beside it: the eight words of a command
record (12.4) and a write to the register window (12.2), each read into the row that takes it.
-/
namespace Sys2Proof

/-- The command that a word spells by the table's bits. The table gives none. -/
def decodeTableWord (_nbits _w : Nat) : Option Instr := none

/-- The record of eight words, less its code (12.4). Word 0 bits 15:8 are not examined (R194). -/
def recordOf (ws : Vector Word 8) : CommandRecord where
  tag := BitVec.ofNat 16 (Machine.field ws[0] 16 16)
  w1 := ws[1]
  w2 := ws[2]
  w3 := ws[3]
  w4 := ws[4]
  w5 := ws[5]
  w6 := ws[6]
  w7 := ws[7]

/-- The row that takes a command with this code (12.4); a code that names no command is UNKNOWN_COMMAND's (R155). -/
def commandRow (code : BitVec 8) (r : CommandRecord) : Instr :=
  if code = 0x01 then .linkConfigure r
  else if code = 0x02 then .linkStart r
  else if code = 0x03 then .linkStop r
  else if code = 0x10 then .openStream r
  else if code = 0x11 then .closeStream r
  else if code = 0x12 then .restartStream r
  else if code = 0x13 then .queryStream r
  else if code = 0x20 then .loadSchedule r
  else if code = 0x21 then .commitSchedule r
  else if code = 0x22 then .cancelCommit r
  else if code = 0x30 then .setSense r
  else if code = 0x40 then .postEvent r
  else if code = 0x41 then .injectFault r
  else .unknownCommand code r

/-- The row that a command record of eight words is (12.4, R155). -/
def decodeRecord (ws : Vector Word 8) : Instr := commandRow (BitVec.ofNat 8 (Machine.field ws[0] 0 8)) (recordOf ws)

/-- The row that a notify is (R180). -/
def decodeNotify (value : Word) : Instr :=
  let selector := Machine.field value 16 8
  let v := BitVec.ofNat 16 (Machine.field value 0 16)
  if selector = 0 then .notifyCommandRing v
  else if selector = 1 then .acknowledge v
  else
    match Machine.streamOf (selector - 2) with
    | some i => .notifyBlockRing i v
    | none => .notifyNoRing (BitVec.ofNat 8 selector) v

/-- The row that a full 32-bit write to a word of the register window is (R179, R187, R192): RESET before ENABLE. -/
def decodeHostWrite (reg : Register) (value : Word) : Instr :=
  match reg with
  | .baseLow => .registerWrite .baseLow true value
  | .baseHigh => .registerWrite .baseHigh true value
  | .control =>
    if value.getLsbD 1 then .softReset else if value.getLsbD 0 then .enable else .registerWrite .control true value
  | .status => .registerWrite .status true value
  | .notify => decodeNotify value

end Sys2Proof
end

