-- ==== Sys2Proof/Machine/Retirement.lean ====
section
/-!
DEFINITION. Retirement of blocks (R93 to R98): what a BLOCK_DONE record carries, when a head retires, when it waits, and what
the end of a quiesce finishes.
-/
namespace Sys2Proof.Machine

/-- The size of the stream's block ring; 0 for a CLOSED stream, which has none. -/
def Stream.ringSize (c : Stream) : Nat :=
  match c.shape with
  | none => 0
  | some sh => sh.ringSize

/-- The frames of a progress record, when both are present. -/
def Entry.frames (e : Entry) : Option (FrameNo × FrameNo) :=
  match e.firstFrame, e.lastFrame with
  | some a, some b => some (a, b)
  | _, _ => none

/-- Elements done in a BLOCK_DONE record (R95): the element count for COMPLETE, the elements sent or stored for TRUNCATED, 0 for
ABORTED. -/
def Entry.doneAs (e : Entry) : BlockStatus → Nat
  | .complete => e.count
  | .truncated => e.done
  | .aborted => 0

/-- The BLOCK_DONE record of a retiring entry (R95). An ABORTED record carries no frames and every count 0 (R98). -/
def blockDoneOf (i : StreamId) (ringSize : Nat) (e : Entry) (status : BlockStatus) : BlockDone where
  stream := i
  ringIndex := e.ringIndex
  cookie := e.cookie
  status := status
  done := e.doneAs status
  frames := if e.doneAs status = 0 then none else e.frames
  fresh := if status = .aborted then 0 else e.fresh
  stale := if status = .aborted then 0 else e.stale
  damaged := if status = .aborted then 0 else e.damaged
  missing := if status = .aborted then 0 else e.missing
  retireIndex := (e.ringIndex + 1) % ringSize

/-- A retirement produces a record when REPORT is set, when its status is not COMPLETE, and at the end of a quiesce whatever
the flag says (R94, R98). -/
def producesRecord (c : Stream) (e : Entry) (status : BlockStatus) : Bool :=
  e.report || decide (status ≠ .complete) || c.drained

/-- The cursor when the list becomes `left`. A quiesce retires entries that were not fetched or stored in full, so the cursor may
name one that leaves: it is then kept within the list (R54, R101, R127). Otherwise an entry that leaves is full, and the cursor stands
behind it. -/
def Stream.cursorOver (c : Stream) (left : List Entry) : Option Cursor :=
  if c.drained then c.cursor.bind (cursorIn left) else c.cursor

/-- The head leaves the list and the retire index advances by one (R94), with the cursor over the entries left. -/
def Stream.popHead (c : Stream) : Stream :=
  { c with list := c.list.tail, retire := (c.retire + 1) % c.ringSize, cursor := c.cursorOver c.list.tail }

/-- The head of stream `i` retires silently (R94). -/
def State.retireSilently (s : State) (i : StreamId) : State := s.setStream i (s.stream i).popHead

/-- The head of stream `i` retires with a record, which enters the holding list in the same step (R94). -/
def State.retireReporting (s : State) (i : StreamId) (e : Entry) (status : BlockStatus) : State :=
  let c := s.stream i
  (s.enter (.blockDone (blockDoneOf i c.ringSize e status))).setStream i c.popHead

/-- Finished heads of stream `i` retire, one after another, as far as holding places go; one that must report and finds no
place waits (R93, R94, R96). The first argument bounds the heads looked at. -/
def retireHeads : Nat → StreamId → State → State
  | 0, _, s => s
  | n + 1, i, s =>
    match (s.stream i).list with
    | [] => s
    | e :: _ =>
      match e.finished with
      | none => s
      | some status =>
        if producesRecord (s.stream i) e status then
          if s.freePlace then retireHeads n i (s.retireReporting i e status) else s
        else retireHeads n i (s.retireSilently i)

/-- The finished heads of stream `i` retire or wait. A list holds at most two entries (R88). -/
def State.retireFinished (s : State) (i : StreamId) : State := retireHeads 2 i s

/-- The waiting head of stream `i` is served with a freed place: its record enters and it retires. A second entry that is
finished and silent retires in the same step; one that must report stays a claimant (R96). -/
def State.serveRetirement (s : State) (i : StreamId) : State :=
  match (s.stream i).list with
  | [] => s
  | e :: rest =>
    match e.finished with
    | none => s
    | some status =>
      let t := s.retireReporting i e status
      match rest with
      | [] => t
      | e2 :: _ =>
        match e2.finished with
        | none => t
        | some status2 => if producesRecord (s.stream i) e2 status2 then t else t.retireSilently i

/-- The status with which the end of the drain finishes a head that is not finished (R54, R98). -/
def Entry.drainStatus (e : Entry) : BlockStatus :=
  if e.done = e.count then .complete else if e.done = 0 then .aborted else .truncated

/-- An entry keeps the status it was finished with, and takes the one given otherwise. -/
def Entry.finishAs (e : Entry) (status : BlockStatus) : Entry :=
  match e.finished with
  | some _ => e
  | none => { e with finished := some status }

/-- At the end of the drain every entry is finished: the head by what was done of it, a second entry ABORTED (R54, R98). -/
def finishDrained : List Entry → List Entry
  | [] => []
  | e :: rest => e.finishAs e.drainStatus :: rest.map fun e2 => e2.finishAs .aborted

end Sys2Proof.Machine
end

