-- ==== Sys2Proof/Machine/LinkOps.lean ====
section
/-!
DEFINITION. What the link's rules share: the entry to STOPPED (R32), the bad-return run with its two link health events and the
fault stop (R14, R15, R33), a return that answers no entry (R10, R12), and the notice the Return Unit gives after an
entry leaves the window (R13).
-/
namespace Sys2Proof.Machine

/-- Step 1 of R32: an outstanding START completes. -/
def State.completeStart (s : State) (status : CommandStatus) : State :=
  match s.link.start with
  | none => s
  | some c => ({ s with link.start := none } : State).complete c status .none

/-- Step 4 of R32: an outstanding STOP completes OK. -/
def State.completeStop (s : State) : State :=
  match s.link.stop with
  | none => s
  | some c => ({ s with link.stop := none } : State).complete c .ok .none

/-- Step 5 of R32: LINK_DOWN for the stop cause RETURN_FAULT. -/
def State.presentLinkDown (s : State) : State :=
  match s.link.stopCause with
  | none => s
  | some .host => s
  | some .returnFault => s.present (.linkDown .returnFault s.link.frame s.link.badRun)
  | some .engineFault => s

/-- The entry to STOPPED with the engine READY (R32), in its order: START, armed swap, markers, STOP, LINK_DOWN. The watch and
the timeout timer end with WAITING (R27). -/
def State.enterStopped (s : State) (startStatus : CommandStatus) : State :=
  let t : State := { s with link.state := .stopped, link.timeout := none, lines.watch := none }
  ((((t.completeStart startStatus).performArmedSwap none).markersOff).completeStop).presentLinkDown

/-- The link may pass from STOPPING to STOPPED (R32): the return window is empty and no frame is in transmission. -/
def State.mayStop (s : State) : Bool :=
  decide (s.link.state = .stopping) && s.ret.window.isEmpty && !s.link.transmitting

/-- The link passes to STOPPED when it may (R32). From STOPPING no START is outstanding. -/
def State.stopWhenDone (s : State) : State := if s.mayStop then s.enterStopped .cancelled else s

/-- The fault threshold of the configuration; 0, which never stops the link, without one. -/
def Link.faultThreshold (k : Link) : Nat :=
  match k.config with
  | none => 0
  | some c => c.threshold

/-- A GOOD resolution of frame `f` (R14, R15): LINK_RESTORED when the run was above 0, and the run returns to 0. -/
def State.goodReturn (s : State) (f : FrameNo) : State :=
  if s.link.badRun = 0 then s
  else { s.present (.linkRestored f s.link.badRun) with link.badRun := 0 }

/-- The addition brings the run to a non-zero threshold while RUNNING (R14, R33). -/
def State.reachesThreshold (s : State) : Bool :=
  decide (s.link.state = .running) && decide (s.link.faultThreshold ≠ 0)
    && decide (s.link.badRun < 65535) && decide (s.link.badRun + 1 = s.link.faultThreshold)

/-- The fault stop (R33): STOPPING with cause RETURN_FAULT, the frame timer cancelled. -/
def State.faultStop (s : State) : State :=
  { s with link.state := .stopping, link.stopCause := some .returnFault, link.frameTimer := false }

/-- One bad return (R14, R15): the run rises by one, LINK_DEGRADED is presented when it passes from 0 to 1, carrying the frame
number given and the last station word, and the fault stop begins when it reaches the threshold. -/
def State.badReturn (s : State) (f : FrameNo) : State :=
  let counted : State := { s with link.badRun := countUp s.link.badRun }
  let told := if s.link.badRun = 0 then counted.present (.linkDegraded f s.ret.lastStation) else counted
  if s.reachesThreshold then told.faultStop else told

/-- A bad return that resolves no entry (R10, R12, R14). Where it begins a fault stop with the window empty and no frame in
transmission, the link passes to STOPPED at once (R32). -/
def State.unmatchedReturn (s : State) (f : FrameNo) : State := (s.badReturn f).stopWhenDone

/-- The Return Unit's notice after an entry leaves the window (R13): the retiring mark clears when no entry holds the pending
bank's generation (R82), and a STOPPING link with an empty window and no frame in transmission passes to STOPPED (R32). -/
def State.windowNotice (s : State) : State :=
  ({ s with sched.retiring := s.sched.retiring && s.windowHolds (s.sched.generation - 1) } : State).stopWhenDone

end Sys2Proof.Machine
end

