-- ==== Sys2Proof/Machine/Inbound.lean ====
section
/-!
DEFINITION. Returns and the in-stream turns they give: the check of an arrival (R6), the elements of a turn (R121, R122), their
acceptance or loss (R123, R124), resolution in frame order (R13), and the matching of an arrival (R10 to R12).
-/
namespace Sys2Proof.Machine

/-- How a window entry resolves (R13). -/
inductive Resolution where
  | good
  | damaged
  | missing
  deriving DecidableEq, Repr

/-- Slot word `k` of a return, word 5 + k (R200). A damaged return may hold no such word: then a free value (log entry 3). -/
def returnSlotWord (words : List Word) (seq : Nat) (k : SlotId) : Word :=
  match words[4 + k.val]? with
  | some w => w
  | none => Config.absentSlotWord seq k.val

/-- The valid mark of IN slot `k` in a return (R200). -/
def validMark (words : List Word) (k : SlotId) : Bool :=
  if k.val < 32 then (words.getD 2 0).getLsbD k.val else (words.getD 3 0).getLsbD (k.val - 32)

/-- Condition and value of an element (R121). -/
def elementOf (mode : TagMode) (fillWord : Word) (r : Resolution) (words : List Word) (seq : Nat) (k : SlotId) :
    Condition × Word :=
  match r with
  | .good => (if validMark words k then .fresh else .stale, returnSlotWord words seq k)
  | .damaged =>
    match mode with
    | .tagged => (.damaged, returnSlotWord words seq k)
    | .plain => (.damaged, fillWord)
  | .missing => (.missing, fillWord)

/-- A turn of an in-stream (R121): one element for each channel, in channel order, each from its placement's slot. -/
def buildTurn (b : Bank) (i : StreamId) (sh : Shape) (mode : TagMode) (f : FrameNo) (r : Resolution) (words : List Word)
    (seq : Nat) : List Element :=
  (List.range sh.channels).filterMap fun ch =>
    (b.slotOf .inLane i ch).map fun k =>
      let e := elementOf mode sh.fillWord r words seq k
      { value := e.2, channel := ch, condition := e.1, frame := f }

/-- A built turn is accepted when its words fit in staging, and lost as an overrun otherwise; the overrun run moves with it
(R123, R124). -/
def State.takeInTurn (s : State) (i : StreamId) (sh : Shape) (f : FrameNo) (turn : List Element) : State :=
  let c := s.stream i
  if c.stagedWords + sh.kind.wordsPerElement * turn.length ≤ sh.depth then
    let t := if c.runFlag then s.present (.streamRecovered i f c.runCount) else s
    t.setStream i { c with elements := c.elements ++ turn, runFlag := false, runCount := 0 }
  else if c.runFlag then s.setStream i { c with runCount := countUp c.runCount }
  else (s.setStream i { c with runFlag := true, runCount := 1 }).present (.streamOverrun i f)

/-- What one in-stream has of a resolution (R120): a turn when the bank names it as due, taken in OPEN or LIVE and discarded in
FAULTED or QUIESCING. -/
def inStreamTurn (b : Bank) (f : FrameNo) (r : Resolution) (words : List Word) (s : State) (i : StreamId) : State :=
  let c := s.stream i
  match c.shape with
  | none => s
  | some sh =>
    match sh.kind with
    | .outStream _ => s
    | .inStream mode =>
      if b.names i && sh.dueIn f && c.mayIssue then
        s.takeInTurn i sh f (buildTurn b i sh mode f r words s.freeSeq)
      else s

/-- A resolution leaves the Return Unit (R13): the in-streams take it in ascending stream number under the bank of the entry's
generation, then the bad-return run, then the notice. The entry has left the window already. -/
def State.resolve (s : State) (e : WindowEntry) (r : Resolution) (words : List Word) : State :=
  let turns := allStreams.foldl (inStreamTurn (s.bankOf e.generation) e.frame r words) s
  let health :=
    match r with
    | .good => turns.goodReturn e.frame
    | .damaged => turns.badReturn e.frame
    | .missing => turns.badReturn e.frame
  health.windowNotice

/-- The oldest entry leaves the window and resolves MISSING (R8, R9). -/
def State.resolveOldestMissing (s : State) : State :=
  match s.ret.window with
  | [] => s
  | e :: rest => ({ s with ret.window := rest } : State).resolve e .missing []

/-- The entry of frame `n` leaves the window and resolves as given, each older entry first resolving MISSING (R10, R11). The
first argument bounds the entries looked at. -/
def resolveThrough : Nat → FrameNo → Resolution → List Word → State → State
  | 0, _, _, _, s => s
  | k + 1, n, r, words, s =>
    match s.ret.window with
    | [] => s
    | e :: rest =>
      if e.frame = n then ({ s with ret.window := rest } : State).resolve e r words
      else resolveThrough k n r words s.resolveOldestMissing

/-- The window holds an entry of frame `n`. -/
def State.awaits (s : State) (n : FrameNo) : Bool := s.ret.window.any fun e => decide (e.frame = n)

/-- The check of an arrival (R6): exactly 53 words, no trailing run, and the 53rd is the check word of the first 52. -/
def goodCheck (words : List Word) (ragged : Bool) : Bool :=
  decide (words.length = 53) && !ragged && decide (words[52]? = some (checkWord (words.take 52)))

/-- An arrival with a good check (R7, R11, R12): its station word is kept, then it resolves its entry or is a stray. -/
def State.takeGoodReturn (s : State) (words : List Word) : State :=
  let n := words.getD 0 0
  let t : State := { s with ret.lastStation := words.getD 1 0 }
  if t.awaits n then resolveThrough t.ret.window.length n .good words t else t.unmatchedReturn n

/-- An arrival with a failed check (R10): it resolves its entry DAMAGED, or counts as one bad return. One that holds no word
carries the number of the last frame started (R15). -/
def State.takeDamagedReturn (s : State) (words : List Word) : State :=
  match words with
  | [] => s.unmatchedReturn s.link.frame
  | n :: _ =>
    if s.awaits n then
      { resolveThrough s.ret.window.length n .damaged words s with freeSeq := s.freeSeq + 1 }
    else s.unmatchedReturn n

/-- The Return Unit takes an arrival (R5, R6): DROP_RETURN discards it unchecked and disarms (R19). -/
def State.takeArrival (s : State) (words : List Word) (ragged : Bool) : State :=
  if s.link.dropReturn then { s with link.dropReturn := false }
  else if goodCheck words ragged then s.takeGoodReturn words
  else s.takeDamagedReturn words

/-- Arrivals are taken while the link is RUNNING or STOPPING and the engine is READY (R5). -/
def State.takesArrivals (s : State) : Bool :=
  decide (s.host.engine = .ready) && decide (s.link.state = .running ∨ s.link.state = .stopping)

/-- The loop mode of the configuration is INTERNAL (R17). -/
def Link.isInternal (k : Link) : Bool :=
  match k.config with
  | none => false
  | some c => decide (c.mode = .internal)

end Sys2Proof.Machine
end

