-- ==== Sys2Proof/Machine/Outbound.lean ====
section
/-!
DEFINITION. The frame start (R23): the bank in force, the frame composed from the streams' turns (R106 to R116), the return
window (R8), the markers (R147) and the words sent (R1 to R4, R18).
-/
namespace Sys2Proof.Machine

/-! ## The slot words and fresh marks (R106) -/

/-- The idle fill word of the configuration. -/
def Link.idleFillWord (k : Link) : Word :=
  match k.config with
  | none => 0
  | some c => c.idleFill

/-- Stream `i` is an out-stream due in frame `f` by its period and phase. -/
def State.outDue (s : State) (i : StreamId) (f : FrameNo) : Bool :=
  match (s.stream i).shape with
  | none => false
  | some sh => decide (sh.kind.lane = .outLane) && sh.dueIn f

/-- The placement of the active bank whose stream is due on OUT slot `k` in frame `f` (R62, R106). -/
def State.dueOnSlot (s : State) (f : FrameNo) (k : SlotId) : Option Placement :=
  s.sched.active.find? fun p => decide (p.lane = .outLane ∧ p.slot = k) && s.outDue p.stream f

/-- What a due out-stream puts on the slot of channel `ch`, with its fresh mark (the table of R106). -/
def Stream.turnWord (c : Stream) (sh : Shape) (idle : Word) (ch : Nat) : Word × Bool :=
  match c.state with
  | .closed => (idle, false)
  | .opened => (idle, false)
  | .live =>
    if sh.channels ≤ c.samples.length then
      match c.samples[ch]? with
      | some x => (x.value, true)
      | none => (sh.fillWord, false)
    else
      match sh.kind with
      | .outStream .repeat =>
        match c.lastSamples[ch]? with
        | some (some w) => (w, false)
        | some none => (sh.fillWord, false)
        | none => (sh.fillWord, false)
      | .outStream .fill => (sh.fillWord, false)
      | .inStream _ => (sh.fillWord, false)
  | .faulted => (sh.fillWord, false)
  | .quiescing => (sh.fillWord, false)

/-- Slot word `k` of frame `f` with its fresh mark (R106 to R110). -/
def State.slotWord (s : State) (f : FrameNo) (k : SlotId) : Word × Bool :=
  match s.dueOnSlot f k with
  | none => (s.link.idleFillWord, false)
  | some p =>
    match (s.stream p.stream).shape with
    | none => (s.link.idleFillWord, false)
    | some sh => (s.stream p.stream).turnWord sh s.link.idleFillWord p.channel.val

/-- The 48 slot words of frame `f` with their fresh marks. -/
def State.composeSlots (s : State) (f : FrameNo) : List (Word × Bool) := (List.finRange 48).map (s.slotWord f)

/-! ## The turns of the out-streams (R107 to R109, R113, R115) -/

/-- An entry that one of its samples was sent from, in frame `f` (R115). -/
def Entry.sent (e : Entry) (f : FrameNo) (x : Sample) : Entry :=
  { e with
    done := e.done + 1
    firstFrame := some (e.firstFrame.getD f)
    lastFrame := some f
    finished := if x.blockEnd then some .complete else none }

/-- A sample sent is assigned to the first entry whose finished mark is clear (R115). -/
def assignSample (f : FrameNo) (x : Sample) : List Entry → List Entry
  | [] => []
  | e :: rest =>
    match e.finished with
    | none => e.sent f x :: rest
    | some _ => e :: assignSample f x rest

/-- The samples of a turn are assigned in their order (R115). -/
def assignSamples (f : FrameNo) (turn : List Sample) (list : List Entry) : List Entry :=
  turn.foldl (fun l x => assignSample f x l) list

/-- A good turn (R107): the C oldest samples leave staging and become the last samples; STREAM_RESUMED ends a run (R113); block
progress is updated and finished blocks retire or wait (R115, R93). -/
def State.goodTurn (s : State) (i : StreamId) (sh : Shape) (f : FrameNo) : State :=
  let c := s.stream i
  let turn := c.samples.take sh.channels
  let t := if c.runFlag then s.present (.streamResumed i f c.runCount) else s
  (t.setStream i
    { c with
      samples := c.samples.drop sh.channels
      lastSamples := turn.map fun x => some x.value
      list := assignSamples f turn c.list
      runFlag := false
      runCount := 0 }).retireFinished i

/-- An underrun turn (R108, R113): nothing leaves staging; the first of a run presents STREAM_STARVED. -/
def State.underrunTurn (s : State) (i : StreamId) (f : FrameNo) : State :=
  let c := s.stream i
  if c.runFlag then s.setStream i { c with runCount := countUp c.runCount }
  else (s.setStream i { c with runFlag := true, runCount := 1 }).present (.streamStarved i f)

/-- What frame `f` does to one stream (R106): a LIVE out-stream that the bank in force names as due takes a good turn or
underruns; any other stream is left as it stands (R109, R110). -/
def outStreamTurn (f : FrameNo) (s : State) (i : StreamId) : State :=
  let c := s.stream i
  match c.shape with
  | none => s
  | some sh =>
    if s.sched.active.names i && s.outDue i f && decide (c.state = .live) then
      if sh.channels ≤ c.samples.length then s.goodTurn i sh f else s.underrunTurn i f
    else s

/-! ## Window, lines and words (R8, R142, R147, R2, R18) -/

/-- The frame period of the configuration, in µs. -/
def Link.framePeriod (k : Link) : Nat :=
  match k.config with
  | none => 0
  | some c => c.period

/-- The Return Unit appends frame `f` to the window with a deadline two frame periods on, first resolving MISSING the entry of
frame f − 2 when it is still there, which is when the window holds two entries (R8). -/
def State.appendToWindow (s : State) (f : FrameNo) (g : Gen) : State :=
  let t := if 2 ≤ s.ret.window.length then s.resolveOldestMissing else s
  { t with ret.window := t.ret.window ++ [{ frame := f, generation := g, deadline := 2 * t.link.framePeriod }] }

/-- A bound marker is active for frame `f` when its stream is LIVE, named by the bank in force and due in frame f + advance
(R147). -/
def State.markerActive (s : State) (f : FrameNo) (m : Marker) : Bool :=
  match m.binding with
  | none => false
  | some b =>
    match (s.stream b.stream).shape with
    | none => false
    | some sh =>
      decide ((s.stream b.stream).state = .live) && s.sched.active.names b.stream
        && sh.dueIn (f + BitVec.ofNat 32 b.advance)

/-- The Line Unit's part of a frame start: frame marks clear (R142), markers set (R147). -/
def State.setLines (s : State) (f : FrameNo) : State :=
  { s with
    lines.sense := Vector.ofFn fun k => { s.lines.sense[k] with frameMark := false }
    lines.markers := Vector.ofFn fun m => { s.lines.markers[m] with active := s.markerActive f s.lines.markers[m] } }

/-- The NEW_GENERATION flag (R2): the generation differs from that of the frame before in the same run; clear in frame 0. -/
def newGenerationFlag (before : Option Gen) (g : Gen) : Bool :=
  match before with
  | none => false
  | some b => decide (b ≠ g)

/-- The Link Controller begins transmission of the words composed (R1, R3); CORRUPT_OUT acts and is disarmed (R18). -/
def State.transmit (s : State) (f : FrameNo) (g : Gen) (slots : List (Word × Bool)) : State :=
  let genWord := generationWord g s.link.runGeneration.isNone (newGenerationFlag s.link.runGeneration g)
  { s with
    link.outFrame := some (frameWords f genWord slots s.link.corruptOut)
    link.corruptOut := false
    link.transmitting := true
    link.loopDue := s.link.isInternal
    link.runGeneration := some g }

/-- The Schedule Unit's part of a frame start: an armed swap is performed at a round start (R77). -/
def State.settleBank (s : State) (f : FrameNo) : State :=
  if f.toNat % 64 = 0 then s.performArmedSwap (some f) else s

/-- The frame start of frame `f` (R23, R24), in the order R23 names the blocks: the bank in force is settled, the frame is
composed and the turns taken, the window appended, the lines set, and transmission begun. -/
def State.frameStart (s : State) (f : FrameNo) : State :=
  let bank := ({ s with link.frame := f, link.frameTimer := true } : State).settleBank f
  let slots := bank.composeSlots f
  let turns := allStreams.foldl (outStreamTurn f) bank
  ((turns.appendToWindow f bank.sched.generation).setLines f).transmit f bank.sched.generation slots

/-! ## The pins (R190) -/

/-- The interrupt pin is low while the interrupt line is asserted, and released while it is deasserted (R190). -/
def State.interruptPinLow (s : State) : Bool := s.interruptLine

/-- Marker output `m` is high while the marker is active, and low while it is not (R146, R190). -/
def State.markerPinHigh (s : State) (m : MarkerId) : Bool := s.lines.markers[m].active

/-- The words on the OUT lane: those of the frame in transmission (R1), none in its idle condition, where INTERNAL loop mode keeps
the drivers (R17). -/
def State.outLaneWords (s : State) : Option (List Word) :=
  if s.link.transmitting && !s.link.isInternal then s.link.outFrame else none

end Sys2Proof.Machine
end

