-- ==== Sys2Proof/Machine/HostWindow.lean ====
section
/-!
DEFINITION. The Host Window: register writes and notifies (R179, R180, R192), ENABLE and the loading of the control area (R183,
R184), and the resets (R187 to R189).
-/
namespace Sys2Proof.Machine

/-! ## Engine control -/

/-- The ENABLE action (R183): in OFF it checks the base and issues the control-area read, or enters FAULT; elsewhere it is
ignored. -/
def State.takeEnable (s : State) : State :=
  if s.host.engine = .off then
    if s.controlBase.toNat % 32 = 0 then
      ({ s with host.engine := .loading } : State).issue .hostWindow s.controlBase (.read 8)
    else s.enterFault .controlInvalid
  else s

/-- The RESET action (R187): RESETTING, and OFF at once when no request is in flight (R188). While RESETTING it has no further
effect. -/
def State.takeReset (s : State) : State :=
  if s.host.engine = .resetting then s else s.enterResetting.offWhenQuiet

/-! ## Notifies (R180) -/

/-- The size of the command ring; 0 before ENABLE. -/
def Processor.ringSize (p : Processor) : Nat :=
  match p.ring with
  | none => 0
  | some r => r.size

/-- The size of the completion ring; 0 before ENABLE. -/
def Completion.ringSize (c : Completion) : Nat :=
  match c.config with
  | none => 0
  | some k => k.size

/-- A new producer ends a wait for a place when no record is left to read (R152). -/
def Processor.withProducer (p : Processor) (v : Nat) : Processor :=
  { p with
    producer := v
    state := if p.state = .waitingPlace ∧ v = p.consumer then .idle else p.state }

/-- A notify with selector 0 (R152). One that is not stray brings the conditions of R153 to be looked at in the same step. -/
def State.takeCommandNotify (s : State) (v : BitVec 16) : State :=
  if s.host.engine = .ready then
    if s.proc.ringSize ≤ v.toNat then s.stray 0 v
    else if s.proc.state = .reading ∧ v.toNat = s.proc.consumer then s.stray 0 v
    else ({ s with proc := s.proc.withProducer v.toNat } : State).lookForCommand
  else s

/-- The holdoff timer at an acknowledge (R175), given the unacknowledged count it leaves. -/
def HoldoffTimer.atAcknowledge (t : HoldoffTimer) (left : Nat) : HoldoffTimer :=
  match t with
  | .stopped => .stopped
  | .running => if left = 0 then .stopped else .running
  | .expired => if left = 0 then .stopped else .running

/-- The advance of an acknowledge (R173). -/
def State.ackAdvance (s : State) (v : BitVec 16) : Nat :=
  (v.toNat + s.comp.ringSize - s.comp.acknowledge) % s.comp.ringSize

/-- A notify with selector 1 (R173). -/
def State.takeAcknowledge (s : State) (v : BitVec 16) : State :=
  if s.host.engine = .ready then
    if s.comp.ringSize ≤ v.toNat then s.stray 1 v
    else if s.ackAdvance v = 0 then s
    else if s.comp.unacknowledged < s.ackAdvance v then s.stray 1 v
    else
      { s with
        comp.acknowledge := v.toNat
        comp.unacknowledged := s.comp.unacknowledged - s.ackAdvance v
        comp.timer := s.comp.timer.atAcknowledge (s.comp.unacknowledged - s.ackAdvance v) }
  else s

/-- A producer value withdraws a descriptor the engine has taken or is fetching (R89). -/
def Stream.withdraws (c : Stream) (v : Nat) : Bool :=
  decide ((v + c.ringSize - c.retire) % c.ringSize < c.list.length + flag c.descriptorInFlight)

/-- A notify with selector 2 + i (R89). -/
def State.takeBlockNotify (s : State) (i : StreamId) (v : BitVec 16) : State :=
  if s.host.engine = .ready then
    let c := s.stream i
    if c.state = .closed then s.stray (2 + i.val) v
    else if c.ringSize ≤ v.toNat then s.stray (2 + i.val) v
    else if c.withdraws v.toNat then s.stray (2 + i.val) v
    else s.setStream i { c with producer := v.toNat }
  else s

/-- A notify with a selector above 33 (R174). -/
def State.takeNoRingNotify (s : State) (selector : Nat) (v : BitVec 16) : State :=
  if s.host.engine = .ready then s.stray selector v else s

/-- A write to the notify word goes to the block that owns the selector (R180). -/
def State.takeNotify (s : State) (selector : Nat) (v : BitVec 16) : State :=
  if selector = 0 then s.takeCommandNotify v
  else if selector = 1 then s.takeAcknowledge v
  else
    match streamOf (selector - 2) with
    | some i => s.takeBlockNotify i v
    | none => s.takeNoRingNotify selector v

/-- While the reset pin is held active, writes to the register window are ignored (R189). -/
def State.ifReleased (s : State) (t : State) : State := if s.host.resetHeld then s else t

/-! ## The meanings -/

/-- ENABLE (R183). -/
def execEnable (s : State) : Result := .next (s.ifReleased s.takeEnable)

/-- SOFT_RESET (R187). -/
def execSoftReset (s : State) : Result := .next (s.ifReleased s.takeReset)

/-- A full write to a word of the window (R179, R192). -/
def State.writeRegister (s : State) (reg : Register) (value : Word) : State :=
  match reg with
  | .baseLow => { s with host.baseLow := value }
  | .baseHigh => { s with host.baseHigh := value }
  | .control =>
    if value.getLsbD 1 then s.takeReset else if value.getLsbD 0 then s.takeEnable else s
  | .status => s
  | .notify => s.takeNotify (field value 16 8) (BitVec.ofNat 16 (field value 0 16))

/-- REGISTER_WRITE (R179): a write of fewer than four bytes is ignored. -/
def execRegisterWrite (reg : Register) (full : Bool) (value : Word) (s : State) : Result :=
  .next (if full then s.ifReleased (s.writeRegister reg value) else s)

/-- HARD_RESET (R189): every block takes its reset values at once, and requests in flight are abandoned. A reset from the pin
leaves the pin held; one from power leaves it as it was. -/
def execHardReset (source : ResetSource) (levels : BitVec 8) (s : State) : Result :=
  .next
    { State.reset with
      pending := s.pending
      host := { State.reset.host with resetHeld := (match source with | .pin => true | .power => s.host.resetHeld) }
      lines := { State.reset.lines with sense := Vector.ofFn fun k => SenseLine.reset (levels.getLsbD k.val) }
      freeSeq := s.freeSeq }

/-- NOTIFY_COMMAND_RING (R152). -/
def execNotifyCommandRing (value : BitVec 16) (s : State) : Result := .next (s.ifReleased (s.takeCommandNotify value))

/-- ACKNOWLEDGE (R173). -/
def execAcknowledge (value : BitVec 16) (s : State) : Result := .next (s.ifReleased (s.takeAcknowledge value))

/-- NOTIFY_BLOCK_RING (R89). -/
def execNotifyBlockRing (stream : StreamId) (value : BitVec 16) (s : State) : Result :=
  .next (s.ifReleased (s.takeBlockNotify stream value))

/-- NOTIFY_NO_RING (R174). A selector that does name a ring is that ring's notify. -/
def execNotifyNoRing (selector : BitVec 8) (value : BitVec 16) (s : State) : Result :=
  .next (s.ifReleased (s.takeNotify selector.toNat value))

/-- The engine enters READY with the rings, threshold and holdoff of the control area (R183). -/
def State.enterReady (s : State) (ring : Ring) (config : CompletionConfig) : State :=
  { s with
    host.engine := .ready
    proc.ring := some ring
    proc.producer := 0
    proc.consumer := 0
    comp.config := some config
    comp.produce := 0
    comp.acknowledge := 0
    comp.unacknowledged := 0
    comp.passMark := true }

/-- CONTROL_AREA_LOADED (R183, R184). In FAULT or READY no control-area read is in flight; an answer there is discarded. -/
def execControlAreaLoaded (words : Vector Word 8) (s : State) : Result :=
  s.onAnswer .hostWindow fun _ t =>
    if t.host.engine = .loading then
      match controlFields words with
      | some (ring, config) => t.enterReady ring config
      | none => t.enterFault .controlInvalid
    else t

/-- CONTROL_READ_ERROR (R184). -/
def execControlReadError (s : State) : Result :=
  s.onAnswer .hostWindow fun _ t => if t.host.engine = .loading then t.enterFault .controlRead else t

/-- ANSWER_IN_RESETTING (R188). In any other engine state the row's condition does not hold: an answer there is another row's, and
this one changes nothing (log entry 9). -/
def execAnswerInResetting (requester : Requester) (s : State) : Result :=
  s.onAnswer requester fun _ _ => s

/-- RESET_PIN_RELEASED (R189). -/
def execResetPinReleased (s : State) : Result := .next { s with host.resetHeld := false }

end Sys2Proof.Machine
end

