-- ==== Sys2Proof/Machine/CommandRing.lean ====
section
/-!
DEFINITION. The Command Processor (Chapter 9): reading a record, taking it, the code that names no command, and the two test
commands.
-/
namespace Sys2Proof.Machine

/-! ## Reading a record (R153, R154) -/

/-- COMMAND_READ_ISSUE (R153). Each event at which R153 looks makes the look in its own step, so this row, taken by itself, finds no
record left to read (log entry 29). -/
def execCommandReadIssue (s : State) : Result := .next s.lookForCommand

/-- COMMAND_READ_ERROR (R154): FAULT with cause COMMAND_READ. Out of READY the answer is discarded (R154, R185). -/
def execCommandReadError (s : State) : Result :=
  s.onAnswer .commandProcessor fun _ t => if t.host.engine = .ready then t.enterFault .commandRead else t

/-! ## Taking a record (R154 to R157) -/

/-- The command a record makes: the code and tag as read and the ring index it is taken from (R158). -/
def State.commandOf (s : State) (code : BitVec 8) (r : CommandRecord) : Command where
  code := code
  ringIndex := s.proc.consumer
  tag := r.tag

/-- The consumer advances by one and the processor is free for the owner to hold (R154, R156). -/
def State.advanceConsumer (s : State) : State :=
  { s with proc.consumer := (s.proc.consumer + 1) % s.proc.ringSize, proc.state := .idle }

/-- A command read completes without error and the record is taken: the consumer advances and the owner judges the command in
the same step (R154, R155). One that ends at once or becomes outstanding leaves the processor IDLE, which looks for the next record
(R153, R156, R157); that it looks after the records of frame 0, or of an entry to STOPPED, that the same step makes is DEDUCED (log
entry 29). Out of READY, or with no record being read, the answer is discarded. -/
def State.takeCommand (s : State) (code : BitVec 8) (r : CommandRecord) (owner : Command → State → State) : Result :=
  s.onAnswer .commandProcessor fun _ t =>
    if t.host.engine = .ready ∧ t.proc.state = .reading then
      (owner (t.commandOf code r) t.advanceConsumer).lookForCommand
    else t

/-- A command holds the processor (R156). -/
def State.hold (s : State) (c : Command) : State := { s with proc.state := .held c }

/-- UNKNOWN_COMMAND (R155): the fields are not examined, and the record carries the code as read. -/
def execUnknownCommand (code : BitVec 8) (r : CommandRecord) (s : State) : Result :=
  s.takeCommand code r fun c t => t.endPlain c .unknownCommand

/-! ## Test commands (R160, R161) -/

/-- What POST EVENT does once taken (R160): HOST_POSTED is presented, then the command completes with whether it entered. -/
def State.postEvent (r : CommandRecord) (c : Command) (s : State) : State :=
  if r.w1.toNat ≤ 255 then
    (s.present (.hostPosted r.w1.toNat r.w2)).endCommand c .ok (.posted s.freePlace)
  else s.endPlain c .badParameter

/-- POST_EVENT (R160). -/
def execPostEvent (r : CommandRecord) (s : State) : Result := s.takeCommand 0x40 r (State.postEvent r)

/-- What INJECT FAULT does once taken (R161). -/
def State.injectFault (r : CommandRecord) (c : Command) (s : State) : State :=
  if r.w1 = 0 then
    if s.link.state ≠ .running then s.endPlain c .badState
    else if s.link.corruptOut then s.endPlain c .busy
    else ({ s with link.corruptOut := true } : State).endPlain c .ok
  else if r.w1 = 1 then
    if s.link.state ≠ .running then s.endPlain c .badState
    else if s.link.dropReturn then s.endPlain c .busy
    else ({ s with link.dropReturn := true } : State).endPlain c .ok
  else s.endPlain c .badParameter

/-- INJECT_FAULT (R161). -/
def execInjectFault (r : CommandRecord) (s : State) : Result := s.takeCommand 0x41 r (State.injectFault r)

end Sys2Proof.Machine
end

