-- ==== Sys2Proof/Machine/LinkCommands.lean ====
section
/-!
DEFINITION. The Link Controller's commands and timers (Chapter 2): LINK CONFIGURE, LINK START, LINK STOP, the frame timer, the
end of a transmission, the entry to STOPPED and the trigger timeout. The trigger report stands in Machine/Lines.lean, beside the
edge that makes it.
-/
namespace Sys2Proof.Machine

/-! ## LINK CONFIGURE (R22) -/

/-- What LINK CONFIGURE does once taken (R22): fields before state. -/
def State.linkConfigure (r : CommandRecord) (c : Command) (s : State) : State :=
  match linkConfigFields r with
  | none => s.endPlain c .badParameter
  | some k =>
    if s.link.state = .unconfigured ∨ s.link.state = .stopped then
      ({ s with link.config := some k, link.state := .stopped } : State).endPlain c .ok
    else s.endPlain c .badState

/-- LINK_CONFIGURE (R22). -/
def execLinkConfigure (r : CommandRecord) (s : State) : Result := s.takeCommand 0x01 r (State.linkConfigure r)

/-! ## LINK START (R25 to R27) -/

/-- The settings that come before any other effect of an accepted START (R25). A trigger report made before it does not serve
it (R27). -/
def State.acceptStart (s : State) : State :=
  { s with
    link.frame := 0
    link.badRun := 0
    link.corruptOut := false
    link.dropReturn := false
    link.stopCause := none
    link.runGeneration := none
    lines.reports := s.lines.reports.map fun p => { p with current := false } }

/-- An accepted START without a trigger (R26): RUNNING, frame 0 at once, and the START completes OK. -/
def State.startNow (s : State) (c : Command) : State :=
  (({ s.acceptStart with link.state := .running } : State).frameStart 0).endPlain c .ok

/-- An accepted START with a trigger (R27): WAITING with the watch set and, when the timeout is not 0, its timer started. The
processor's reservation passes with the command to the Link Controller (R157). -/
def State.startWaiting (s : State) (c : Command) (w : Watch) (timeout : Option Nat) : State :=
  { s.acceptStart with
    link.state := .waiting
    link.start := some c
    link.timeout := timeout
    lines.watch := some w }

/-- A START that its state refuses (R25): BUSY while one is outstanding, else BAD_STATE. -/
def State.refuseStart (s : State) (c : Command) : State :=
  if s.link.start.isSome then s.endPlain c .busy else s.endPlain c .badState

/-- What LINK START does once taken (R25). -/
def State.linkStart (r : CommandRecord) (c : Command) (s : State) : State :=
  if triggerPresent r then
    match triggerFields r with
    | none => s.endPlain c .badParameter
    | some w => if s.link.state = .stopped then s.startWaiting c w (timeoutField r) else s.refuseStart c
  else if s.link.state = .stopped then s.startNow c
  else s.refuseStart c

/-- LINK_START (R25). -/
def execLinkStart (r : CommandRecord) (s : State) : Result := s.takeCommand 0x02 r (State.linkStart r)

/-! ## LINK STOP (R30, R31) -/

/-- What LINK STOP does once taken (R30, R31). From RUNNING with the window empty and no frame in transmission the link passes to
STOPPED at once (R32). -/
def State.linkStop (c : Command) (s : State) : State :=
  match s.link.state with
  | .unconfigured => s.endPlain c .ok
  | .stopped => s.endPlain c .ok
  | .waiting =>
    ({ s with link.stopCause := some .host, link.stop := some c } : State).enterStopped .cancelled
  | .running =>
    ({ s with
      link.state := .stopping
      link.stopCause := some .host
      link.frameTimer := false
      link.stop := some c } : State).stopWhenDone
  | .stopping =>
    match s.link.stop with
    | none => { s with link.stop := some c }
    | some _ => s.endPlain c .busy

/-- LINK_STOP (R30). -/
def execLinkStop (r : CommandRecord) (s : State) : Result := s.takeCommand 0x03 r State.linkStop

/-! ## Timers, transmission and the entry to STOPPED -/

/-- FRAME_TIMER_EXPIRY (R23): in RUNNING the next frame starts, numbered one above the last (R24). -/
def execFrameTimerExpiry (s : State) : Result :=
  .next
    (if s.host.engine = .ready ∧ s.link.state = .running ∧ s.link.frameTimer = true then s.frameStart (s.link.frame + 1)
    else s)

/-- The link passes to STOPPED at the end of a transmission in FAULT, without the course of R32 (R34). -/
def Link.stopInFault (k : Link) : Link :=
  match k.state with
  | .unconfigured => k
  | .stopped => k
  | .waiting => k
  | .running => { k with state := .stopped }
  | .stopping => { k with state := .stopped }

/-- The last word of the frame in transmission is sent (R1): in READY a STOPPING link may now pass to STOPPED (R32), and in
FAULT the link does (R34). -/
def State.endTransmission (s : State) : State :=
  let t : State := { s with link.transmitting := false }
  match s.host.engine with
  | .ready => t.stopWhenDone
  | .fault => { t with link := t.link.stopInFault }
  | .off => t
  | .loading => t
  | .resetting => t

/-- TRANSMISSION_END (R32). -/
def execTransmissionEnd (s : State) : Result := .next (if s.link.transmitting then s.endTransmission else s)

/-- ENTRY_TO_STOPPED (R32): a STOPPING link with the window empty and no frame in transmission enters STOPPED. The row whose event
brings the entry makes it in its own step, so this row, taken by itself, finds none left to make (log entry 11). -/
def execEntryToStopped (s : State) : Result :=
  .next (if s.host.engine = .ready then s.stopWhenDone else s)

/-- TIMEOUT_EXPIRY (R29). -/
def execTimeoutExpiry (s : State) : Result :=
  .next
    (if s.host.engine = .ready ∧ s.link.state = .waiting ∧ s.link.timeout.isSome = true then s.enterStopped .timeout
    else s)

end Sys2Proof.Machine
end

