-- ==== Sys2Proof/Machine/Returns.lean ====
section
/-!
DEFINITION. The rows by which the Return Unit resolves frames (Chapter 1): an arrival on the IN lane, the looped return of
INTERNAL mode, and the deadline timer.
-/
namespace Sys2Proof.Machine

/-- RETURN_ARRIVAL (R5): taken in RUNNING or STOPPING with the engine READY, and disregarded otherwise, as it is in INTERNAL
loop mode (R17). -/
def execReturnArrival (words : List Word) (ragged : Bool) (s : State) : Result :=
  .next (if s.takesArrivals ∧ s.link.isInternal = false then s.takeArrival words ragged else s)

/-- The frame's own words become an arrival (R17). -/
def State.loopReturn (s : State) : State :=
  match s.link.outFrame with
  | none => s
  | some words => ({ s with link.loopDue := false } : State).takeArrival words false

/-- LOOPED_RETURN (R17): made once for each frame, after its transmission has ended. -/
def execLoopedReturn (s : State) : Result :=
  .next
    (if s.takesArrivals ∧ s.link.isInternal = true ∧ s.link.loopDue = true ∧ s.link.transmitting = false then s.loopReturn
    else s)

/-- DEADLINE_EXPIRY (R9): the oldest entry resolves MISSING. -/
def execDeadlineExpiry (s : State) : Result := .next (if s.takesArrivals then s.resolveOldestMissing else s)

end Sys2Proof.Machine
end

