-- ==== Sys2Proof/Machine/StreamCommands.lean ====
section
/-!
DEFINITION. The stream commands (Chapter 3): OPEN, CLOSE, RESTART and QUERY, and the quiesce that CLOSE and RESTART pass through.
-/
namespace Sys2Proof.Machine

/-! ## OPEN STREAM (R44, R45) -/

/-- The context of a newly opened stream (R45). -/
def Stream.openAs (sh : Shape) : Stream :=
  { Stream.reset with
    state := .opened
    shape := some sh
    lastSamples :=
      match sh.kind with
      | .outStream _ => List.replicate sh.channels none
      | .inStream _ => [] }

/-- The marker that an OPEN STREAM names is bound already (R45). -/
def State.markerTaken (s : State) (marker : Option (MarkerId × Nat)) : Bool :=
  match marker with
  | none => false
  | some (m, _) => s.lines.markers[m].binding.isSome

/-- The Line Unit binds the marker line to the stream (R45, R146); its output first follows at the next frame start (R148). -/
def State.bindMarker (s : State) (i : StreamId) (marker : Option (MarkerId × Nat)) : State :=
  match marker with
  | none => s
  | some (m, a) =>
    { s with
      lines.markers :=
        s.lines.markers.set m { s.lines.markers[m] with binding := some { stream := i, advance := a } } }

/-- An accepted OPEN STREAM (R45). -/
def State.acceptOpen (s : State) (c : Command) (i : StreamId) (sh : Shape) (marker : Option (MarkerId × Nat)) : State :=
  ((({ s with freePool := s.freePool - sh.depth } : State).setStream i (Stream.openAs sh)).bindMarker i marker).endCommand
    c .ok (.freePool (s.freePool - sh.depth))

/-- An OPEN STREAM whose fields pass, judged against the engine's tables in the order of R45. -/
def State.judgeOpen (s : State) (c : Command) (i : StreamId) (sh : Shape) (marker : Option (MarkerId × Nat)) : State :=
  if (s.stream i).state ≠ .closed then s.endPlain c .badState
  else if s.markerTaken marker then s.endPlain c .badState
  else if s.freePool < sh.depth then s.endCommand c .noStaging (.freePool s.freePool)
  else s.acceptOpen c i sh marker

/-- What OPEN STREAM does once taken (R44, R45). -/
def State.openStream (r : CommandRecord) (c : Command) (s : State) : State :=
  match streamField r, shapeFields r, markerFields r with
  | some i, some sh, some marker => s.judgeOpen c i sh marker
  | _, _, _ => s.endPlain c .badParameter

/-- OPEN_STREAM (R45). -/
def execOpenStream (r : CommandRecord) (s : State) : Result := s.takeCommand 0x10 r (State.openStream r)

/-! ## CLOSE STREAM and RESTART STREAM (R50 to R53) -/

/-- A stream's entry to QUIESCING (R50 to R52). -/
def Stream.quiesce (c : Stream) (op : PendingOperation) : Stream :=
  { c with state := .quiescing, pendingOperation := some op, drained := false }

/-- A stream quiesces and its command holds the processor (R52, R156). -/
def State.beginQuiesce (s : State) (c : Command) (i : StreamId) (op : PendingOperation) : State :=
  (s.setStream i ((s.stream i).quiesce op)).hold c

/-- A bank names the stream (R50). -/
def State.inSchedule (s : State) (i : StreamId) : Bool := s.sched.active.names i || s.sched.pending.names i

/-- What CLOSE STREAM does once taken (R50). -/
def State.closeStream (r : CommandRecord) (c : Command) (s : State) : State :=
  match streamField r with
  | none => s.endPlain c .badParameter
  | some i =>
    if (s.stream i).state = .closed then s.endPlain c .badState
    else if s.inSchedule i then s.endPlain c .inSchedule
    else s.beginQuiesce c i .close

/-- CLOSE_STREAM (R50). -/
def execCloseStream (r : CommandRecord) (s : State) : Result := s.takeCommand 0x11 r (State.closeStream r)

/-- What RESTART STREAM does once taken (R51). The check against the ring size comes after the state check. -/
def State.restartStream (r : CommandRecord) (c : Command) (s : State) : State :=
  match restartFields r with
  | none => s.endPlain c .badParameter
  | some (i, n) =>
    if (s.stream i).state = .closed then s.endPlain c .badState
    else if (s.stream i).ringSize ≤ n then s.endPlain c .badParameter
    else s.beginQuiesce c i (.restart n)

/-- RESTART_STREAM (R51). -/
def execRestartStream (r : CommandRecord) (s : State) : Result := s.takeCommand 0x12 r (State.restartStream r)

/-! ## QUERY STREAM (R58) -/

/-- What QUERY STREAM does once taken (R58): the snapshot of this moment is written, and the command holds the processor. -/
def State.queryStream (r : CommandRecord) (c : Command) (s : State) : State :=
  match queryFields r with
  | none => s.endPlain c .badParameter
  | some (i, a) => (s.issue .streamTable a (.write (s.snapshot i))).hold c

/-- QUERY_STREAM (R58). -/
def execQueryStream (r : CommandRecord) (s : State) : Result := s.takeCommand 0x13 r (State.queryStream r)

/-- A read or write that a held command waits for is answered (R58, R69, R72): `k` takes the held command and the state. Out of
READY, or with no command held, the answer is discarded (R58, R73). -/
def State.onHeldAnswer (s : State) (tag : Requester) (k : Command → Request → State → State) : Result :=
  s.onAnswer tag fun r t =>
    if t.host.engine = .ready then
      match t.proc.state with
      | .idle => t
      | .waitingPlace => t
      | .reading => t
      | .held c => k c r t
    else t

/-- SNAPSHOT_WRITE_DONE (R58). -/
def execSnapshotWriteDone (error : Bool) (s : State) : Result :=
  s.onHeldAnswer .streamTable fun c _ t => t.endHeld c (if error then .writeError else .ok) .none

/-! ## The end of a quiesce (R54 to R56) -/

/-- The drain of the stream is finished and its blocks have not been finished yet (R53). -/
def Stream.drainDone (c : Stream) : Bool :=
  decide (c.state = .quiescing) && !c.drained && !c.requestInFlight

/-- Every entry of the list is finished, and the cursor names one of them or is absent (R54, R98, R101, R127). -/
def Stream.drain (c : Stream) : Stream :=
  { c with list := finishDrained c.list, drained := true, cursor := c.cursor.bind (cursorIn c.list) }

/-- Every descriptor in the list is finished, and the heads retire as places go (R54, R98), each with the cursor over the entries left
(R101, R127). -/
def State.finishDrain (s : State) (i : StreamId) : State := (s.setStream i (s.stream i).drain).retireFinished i

/-- DRAIN_FINISHED (R54). -/
def execDrainFinished (i : StreamId) (s : State) : Result :=
  .next (if s.host.engine = .ready ∧ (s.stream i).drainDone then s.finishDrain i else s)

/-- Every retirement record of the quiesce has entered (R54). -/
def Stream.quiesceOver (c : Stream) : Bool := decide (c.state = .quiescing) && c.drained && c.list.isEmpty

/-- The staging depth of the stream; 0 when it is CLOSED. -/
def Stream.depth (c : Stream) : Nat :=
  match c.shape with
  | none => 0
  | some sh => sh.depth

/-- The Line Unit ends the stream's marker binding; the output first follows at the next frame start (R55, R148). -/
def State.unbindMarkers (s : State) (i : StreamId) : State :=
  { s with
    lines.markers :=
      s.lines.markers.map fun m =>
        match m.binding with
        | none => m
        | some b => if b.stream = i then { m with binding := none } else m }

/-- The end of a CLOSE (R55). -/
def State.endClose (s : State) (c : Command) (i : StreamId) : State :=
  ((({ s with freePool := s.freePool + (s.stream i).depth } : State).setStream i Stream.reset).unbindMarkers i).endHeld
    c .ok (.closed (s.stream i).retire (s.freePool + (s.stream i).depth))

/-- END_OF_CLOSE (R55). -/
def execEndOfClose (i : StreamId) (s : State) : Result :=
  .next
    (if s.host.engine = .ready ∧ (s.stream i).quiesceOver then
      match (s.stream i).pendingOperation, s.proc.state with
      | some .close, .held c => s.endClose c i
      | _, _ => s
    else s)

/-- The context at the end of a RESTART to ring index `n` (R56). -/
def Stream.restartAt (c : Stream) (named : Bool) (n : Nat) : Stream :=
  { c with
    state := if named then .live else .opened
    samples := []
    elements := []
    producer := n
    fetch := n
    retire := n
    list := []
    cursor := none
    lastSamples := c.lastSamples.map fun _ => none
    runFlag := false
    runCount := 0
    faultCause := none
    pendingOperation := none
    drained := false }

/-- The end of a RESTART (R56). -/
def State.endRestart (s : State) (c : Command) (i : StreamId) (n : Nat) : State :=
  (s.setStream i ((s.stream i).restartAt (s.sched.active.names i) n)).endHeld c .ok (.ringIndex n)

/-- END_OF_RESTART (R56). -/
def execEndOfRestart (i : StreamId) (s : State) : Result :=
  .next
    (if s.host.engine = .ready ∧ (s.stream i).quiesceOver then
      match (s.stream i).pendingOperation, s.proc.state with
      | some (.restart n), .held c => s.endRestart c i n
      | _, _ => s
    else s)

end Sys2Proof.Machine
end

