-- ==== Sys2Proof/Machine/ScheduleCommands.lean ====
section
/-!
DEFINITION. The Schedule Unit's commands (Chapter 4): LOAD SCHEDULE with its change list, COMMIT SCHEDULE and CANCEL COMMIT.
-/
namespace Sys2Proof.Machine

/-! ## Changes (R70, R71) -/

/-- A placement added to a bank, which stays in rising order of `placementKey`. -/
def Bank.insert (p : Placement) : Bank → Bank
  | [] => [p]
  | q :: rest =>
    if placementKey p < placementKey q then p :: q :: rest
    else if placementKey p = placementKey q then q :: rest
    else q :: Bank.insert p rest

/-- A placement removed from a bank. -/
def Bank.remove (b : Bank) (p : Placement) : Bank := b.filter fun q => decide (q ≠ p)

/-- The placements on a lane-slot. -/
def Bank.onSlot (b : Bank) (lane : Lane) (slot : SlotId) : List Placement :=
  b.filter fun q => decide (q.lane = lane ∧ q.slot = slot)

/-- The lowest-numbered stream on the placement's lane-slot that it collides with (R64, R70). -/
def State.collidesWith (s : State) (b : Bank) (p : Placement) : Option StreamId :=
  allStreams.find? fun j => (b.onSlot p.lane p.slot).any (fun q => decide (q.stream = j)) && s.streamsCollide p.stream j

/-- What a change does: it applies, or it ends the LOAD (R72). -/
inductive ChangeOutcome where
  | applied (working : Bank)
  | failed (status : CommandStatus) (reason : ChangeReason) (collidedWith : Option StreamId)
  deriving DecidableEq, Repr

/-- Checks 3 to 7 of R70, for a PLACE of a stream with this shape. -/
def State.placeChecked (s : State) (working : Bank) (p : Placement) (sh : Shape) : ChangeOutcome :=
  if sh.kind.lane ≠ p.lane then .failed .badChange .lane none
  else if sh.channels ≤ p.channel.val then .failed .badChange .channel none
  else if working.places p.stream p.channel.val then .failed .badChange .duplicate none
  else if 4 ≤ (working.onSlot p.lane p.slot).length then .failed .slotFull .none none
  else
    match s.collidesWith working p with
    | some j => .failed .badChange .collision (some j)
    | none => .applied (Bank.insert p working)

/-- A PLACE change of a placement in range (R70, checks 2 to 7). -/
def State.placeChange (s : State) (working : Bank) (p : Placement) : ChangeOutcome :=
  match (s.stream p.stream).shape with
  | none => .failed .badChange .closed none
  | some sh =>
    if (s.stream p.stream).state = .closed then .failed .badChange .closed none
    else s.placeChecked working p sh

/-- A CLEAR change of a placement in range (R71). -/
def clearChange (working : Bank) (p : Placement) : ChangeOutcome :=
  if working.contains p then .applied (working.remove p) else .failed .badChange .absent none

/-- A change entry applied to the working copy (R70, R71, R197). -/
def State.applyChange (s : State) (working : Bank) (entry : Word) : ChangeOutcome :=
  match changePlacement entry with
  | none => .failed .badChange .field none
  | some p =>
    if changeAction entry = 1 then s.placeChange working p
    else if changeAction entry = 2 then clearChange working p
    else .failed .badChange .field none

/-- How the entries of one read end: all applied, or the change index and outcome of the first that failed. -/
inductive ListOutcome where
  | applied (working : Bank)
  | failed (index : Nat) (status : CommandStatus) (reason : ChangeReason) (collidedWith : Option StreamId)
  deriving DecidableEq, Repr

/-- Entries applied one after another in index order, the first with change index `n` (R69). -/
def State.applyChanges (s : State) : List Word → Nat → Bank → ListOutcome
  | [], _, working => .applied working
  | w :: rest, n, working =>
    match s.applyChange working w with
    | .applied next => s.applyChanges rest (n + 1) next
    | .failed status reason j => .failed n status reason j

/-! ## LOAD SCHEDULE (R68, R69, R72, R84) -/

/-- The bank a LOAD starts from, as it stands at that moment (R69). -/
def State.basisBank (s : State) : Basis → Bank
  | .empty => []
  | .active => s.sched.active
  | .pending => s.sched.pending

/-- The Schedule Unit reads up to 16 entries from change index `next` on (R67, R69). DESIGN CHOICE (log entry 27): R69 leaves open
how many of the entries that remain each read covers, and the model's reads cover 16 or all that remain. -/
def State.readChanges (s : State) (working : Bank) (a : Addr) (count next : Nat) : State :=
  ({ s with sched.load := .performing working a count next } : State).issue .scheduleUnit
    (hostAddress (a.toNat + 4 * next)) (.read (min 16 (count - next)))

/-- A LOAD is performed from its basis (R69). -/
def State.performLoad (s : State) (a : Addr) (count : Nat) (basis : Basis) : State :=
  s.readChanges (s.basisBank basis) a count 0

/-- What LOAD SCHEDULE does once taken (R68): refused, held, or performed. -/
def State.loadSchedule (r : CommandRecord) (c : Command) (s : State) : State :=
  match loadFields r with
  | none => s.endPlain c .badParameter
  | some (a, count, basis) =>
    if s.sched.swapArmed then s.endPlain c .swapArmed
    else if s.sched.retiring then ({ s with sched.load := .held a count basis } : State).hold c
    else (s.performLoad a count basis).hold c

/-- LOAD_SCHEDULE (R68). -/
def execLoadSchedule (r : CommandRecord) (s : State) : Result := s.takeCommand 0x20 r (State.loadSchedule r)

/-- HELD_LOAD_PERFORMED (R84). -/
def execHeldLoadPerformed (s : State) : Result :=
  .next
    (if s.host.engine = .ready ∧ s.sched.retiring = false then
      match s.sched.load with
      | .none => s
      | .held a count basis => s.performLoad a count basis
      | .performing _ _ _ _ => s
    else s)

/-- A LOAD ends and its working copy is discarded (R72). -/
def State.endLoad (s : State) (c : Command) (status : CommandStatus) (result : CommandResult) : State :=
  ({ s with sched.load := .none } : State).endHeld c status result

/-- The entries of a read have come (R69, R72): a failed change ends the LOAD, the last entry ends it OK with the working copy
as the new pending bank, and otherwise the next read is issued. -/
def State.takeChanges (s : State) (c : Command) (working : Bank) (a : Addr) (count next : Nat) (entries : List Word) : State :=
  match s.applyChanges entries next working with
  | .failed n status reason j => s.endLoad c status (.change n reason j)
  | .applied done =>
    if count ≤ next + entries.length then
      ({ s with sched.pending := done } : State).endLoad c .ok (.placements done.length)
    else s.readChanges done a count (next + entries.length)

/-- Words that a request reads or writes. -/
def Transfer.length : Transfer → Nat
  | .read n => n
  | .write ws => ws.length

/-- CHANGE_LIST_READ_DONE (R69). Without a LOAD being performed the answer is discarded; entries other than as many as were asked for
are no answer to the read, and change nothing (log entry 8). -/
def execChangeListReadDone (entries : List Word) (s : State) : Result :=
  s.onHeldAnswer .scheduleUnit fun c r t =>
    match t.sched.load with
    | .none => t
    | .held _ _ _ => t
    | .performing working a count next =>
      if entries.length = r.transfer.length then t.takeChanges c working a count next entries else s

/-- CHANGE_LIST_READ_ERROR (R72): READ_ERROR with the change index of the first entry of the failed read. -/
def execChangeListReadError (s : State) : Result :=
  s.onHeldAnswer .scheduleUnit fun c _ t =>
    match t.sched.load with
    | .none => t
    | .held _ _ _ => t
    | .performing _ _ _ next => t.endLoad c .readError (.change next .none none)

/-! ## COMMIT SCHEDULE and CANCEL COMMIT (R74 to R76, R80) -/

/-- The link is UNCONFIGURED or STOPPED, where a COMMIT swaps at once (R75). -/
def Link.isStopped (k : Link) : Bool := decide (k.state = .unconfigured ∨ k.state = .stopped)

/-- An accepted COMMIT (R75, R76). When the swap is armed, the processor's reservation passes with the command (R157). -/
def State.acceptCommit (s : State) (c : Command) : State :=
  if s.link.isStopped then s.swap.endCommand c .ok (.swapped s.swap.sched.generation none)
  else { s with sched.swapArmed := true, sched.commit := some c }

/-- What COMMIT SCHEDULE does once taken (R74). -/
def State.commitSchedule (c : Command) (s : State) : State :=
  if s.sched.swapArmed then s.endPlain c .swapArmed
  else
    match s.lowestLacking s.sched.pending with
    | some i => s.endCommand c .incomplete (.lacking i)
    | none => s.acceptCommit c

/-- COMMIT_SCHEDULE (R74). -/
def execCommitSchedule (r : CommandRecord) (s : State) : Result := s.takeCommand 0x21 r State.commitSchedule

/-- The COMMIT outstanding for an armed swap completes CANCELLED (R80). -/
def State.cancelOutstanding (s : State) : State :=
  match s.sched.commit with
  | none => s
  | some c => ({ s with sched.commit := none } : State).complete c .cancelled .none

/-- What CANCEL COMMIT does once taken (R80): the COMMIT's record enters before its own. -/
def State.cancelCommit (c : Command) (s : State) : State :=
  if s.sched.swapArmed then ({ s with sched.swapArmed := false } : State).cancelOutstanding.endPlain c .ok
  else s.endPlain c .notArmed

/-- CANCEL_COMMIT (R80). -/
def execCancelCommit (r : CommandRecord) (s : State) : Result := s.takeCommand 0x22 r State.cancelCommit

end Sys2Proof.Machine
end

