-- ==== Sys2Proof/Machine/Lines.lean ====
section
/-!
DEFINITION. The Line Unit's sense lines (Chapter 8): SET SENSE, the edges, their records and rate limit, and the trigger watch
with the report that starts a link.
-/
namespace Sys2Proof.Machine

/-! ## SET SENSE (R139) -/

/-- The levels that SET SENSE answers with, as they stand (R139). -/
def State.lineLevels (s : State) : CommandResult :=
  .levels (s.lines.sense.toList.map (·.level)) (s.lines.markers.toList.map (·.active))

/-- The eight selects replace those held, all together (R139). -/
def State.takeSelects (s : State) (r : CommandRecord) : State :=
  { s with
    lines.sense :=
      Vector.ofFn fun k => { s.lines.sense[k] with select := (selectField r k).getD s.lines.sense[k].select } }

/-- What SET SENSE does once taken (R139). -/
def State.setSense (r : CommandRecord) (c : Command) (s : State) : State :=
  if selectsValid r then (s.takeSelects r).endCommand c .ok s.lineLevels else s.endPlain c .badParameter

/-- SET_SENSE (R139). -/
def execSetSense (r : CommandRecord) (s : State) : Result := s.takeCommand 0x30 r (State.setSense r)

/-! ## Edges (R138, R140, R141, R143) -/

/-- The edge is selected (R138). -/
def EdgeSelect.selects : EdgeSelect → Edge → Bool
  | .none, _ => false
  | .rising, .rising => true
  | .rising, .falling => false
  | .falling, .rising => false
  | .falling, .falling => true
  | .both, _ => true

/-- The level a line has after an edge (R138). -/
def edgeLevel : Edge → Bool
  | .rising => true
  | .falling => false

/-- The state with the record of sense line `k` replaced. -/
def State.setSenseLine (s : State) (k : LineId) (c : SenseLine) : State :=
  { s with lines.sense := s.lines.sense.set k c }

/-- A selected edge presents its record, carrying the suppressed count. The count returns to 0 when the record enters, and
counts this edge too when it is dropped (R140, R141, R143). -/
def State.presentEdge (s : State) (k : LineId) (e : Edge) (stamp : Option (FrameNo × Nat)) : State :=
  let c := s.lines.sense[k]
  (s.setSenseLine k { c with suppressed := if s.freePlace then 0 else countUp c.suppressed }).present
    (.senseEdge k e stamp c.suppressed)

/-- A selected edge in RUNNING (R141): the first of a frame on its line is reported, and each later one is counted. -/
def State.edgeInFrame (s : State) (k : LineId) (e : Edge) (offset : Nat) : State :=
  let c := s.lines.sense[k]
  if c.frameMark then s.setSenseLine k { c with suppressed := countUp c.suppressed }
  else (s.setSenseLine k { c with frameMark := true }).presentEdge k e (some (s.link.frame, offset))

/-- A selected edge (R140, R141). The offset stops at the frame period less 1. -/
def State.selectedEdge (s : State) (k : LineId) (e : Edge) (micros : Nat) : State :=
  if s.host.engine = .ready then
    if s.link.state = .running then s.edgeInFrame k e (min micros (s.link.framePeriod - 1))
    else s.presentEdge k e none
  else s

/-- The watch waits for this edge (R144). -/
def State.isTriggerEdge (s : State) (k : LineId) (e : Edge) : Bool :=
  match s.lines.watch with
  | none => false
  | some w => decide (w.line = k ∧ w.edge = e)

/-- The Line Unit reports the trigger edge and ends the watch in the same step (R144). -/
def State.reportTrigger (s : State) (k : LineId) (e : Edge) : State :=
  { s with lines.watch := none, lines.reports := s.lines.reports ++ [{ line := k, edge := e, current := true }] }

/-- SENSE_LINE_EDGE (R138): the level changes; a trigger edge is reported, and its record is settled when the report is taken
(R145); any other selected edge is handled at once. -/
def execSenseLineEdge (k : LineId) (e : Edge) (micros : Nat) (s : State) : Result :=
  let t := s.setSenseLine k { s.lines.sense[k] with level := edgeLevel e }
  .next
    (if t.isTriggerEdge k e then t.reportTrigger k e
    else if t.lines.sense[k].select.selects e then t.selectedEdge k e micros
    else t)

/-! ## The trigger report (R28, R145) -/

/-- A report that finds the link WAITING for it (R28): RUNNING, START OK, and frame 0 at the moment of the edge. A selected
trigger edge then makes its record, stamped frame 0, offset 0 (R145). DESIGN CHOICE (log entry 26): the select and the suppressed
count are those held when the report is taken, not those at the edge, between which a SET SENSE may come. -/
def State.triggerStart (s : State) (p : TriggerReport) : State :=
  let t : State := { s with link.state := .running, link.timeout := none }
  let running := (t.completeStart .ok).frameStart 0
  if running.lines.sense[p.line].select.selects p.edge then running.edgeInFrame p.line p.edge 0 else running

/-- A report that finds the link no longer WAITING for it starts nothing; a selected edge makes its record with "no frame"
(R28, R145). DESIGN CHOICE (log entry 26): the select and the suppressed count are those held when the report is taken. -/
def State.triggerTooLate (s : State) (p : TriggerReport) : State :=
  if s.lines.sense[p.line].select.selects p.edge then s.presentEdge p.line p.edge none else s

/-- The Link Controller takes a report (R28). Out of READY an edge makes no record (R140, R149). -/
def State.takeReport (s : State) (p : TriggerReport) : State :=
  if s.host.engine = .ready then
    if s.link.state = .waiting ∧ p.current = true then s.triggerStart p else s.triggerTooLate p
  else s

/-- TRIGGER_EDGE_REPORT (R28). -/
def execTriggerEdgeReport (s : State) : Result :=
  .next
    (match s.lines.reports with
    | [] => s
    | p :: rest => ({ s with lines.reports := rest } : State).takeReport p)

end Sys2Proof.Machine
end

