-- ==== Sys2Proof/Machine/BlockRings.lean ====
section
/-!
DEFINITION. The Block Ring Unit's descriptor reads (Chapter 5).
-/
namespace Sys2Proof.Machine

/-- The conditions of R90 on the stream itself. -/
def Stream.wantsDescriptor (c : Stream) : Bool :=
  c.mayIssue && decide (c.list.length < 2) && decide (c.fetch ≠ c.producer) && !c.descriptorInFlight

/-- The 16-byte read of the descriptor at the fetch index (R87, R90). -/
def State.readDescriptor (s : State) (i : StreamId) (sh : Shape) : State :=
  (s.setStream i { s.stream i with descriptorInFlight := true }).issue (.descriptor i)
    (hostAddress (sh.ringBase.toNat + 16 * (s.stream i).fetch)) (.read 4)

/-- DESCRIPTOR_READ_ISSUE (R90). -/
def execDescriptorReadIssue (i : StreamId) (s : State) : Result :=
  .next
    (if s.host.engine = .ready ∧ (s.stream i).wantsDescriptor then
      match (s.stream i).shape with
      | none => s
      | some sh => s.readDescriptor i sh
    else s)

/-- The stream's descriptor read is in flight no longer. -/
def State.descriptorAnswered (s : State) (i : StreamId) : State :=
  s.setStream i { s.stream i with descriptorInFlight := false }

/-- A good descriptor joins the tail of the list, the fetch index advances, and an absent cursor takes the new entry (R91, R101,
R127). -/
def Stream.takeDescriptor (c : Stream) (ws : Vector Word 4) : Stream :=
  { c with
    list := c.list ++ [descriptorEntry ws c.fetch]
    fetch := (c.fetch + 1) % c.ringSize
    cursor :=
      match c.cursor with
      | none => some { ringIndex := c.fetch, moved := 0 }
      | some k => some k }

/-- A descriptor has been read for a stream in OPEN or LIVE (R91). -/
def State.judgeDescriptor (s : State) (i : StreamId) (ws : Vector Word 4) : State :=
  if descriptorValid ws then s.setStream i ((s.stream i).takeDescriptor ws)
  else s.faultStream i .badDescriptor (s.stream i).fetch

/-- DESCRIPTOR_READ_DONE (R91): discarded in FAULTED, in QUIESCING and in an engine FAULT (R48, R53, R59). -/
def execDescriptorReadDone (i : StreamId) (ws : Vector Word 4) (s : State) : Result :=
  s.onAnswer (.descriptor i) fun _ t =>
    let u := t.descriptorAnswered i
    if u.host.engine = .ready ∧ (u.stream i).mayIssue then u.judgeDescriptor i ws else u

/-- DESCRIPTOR_READ_ERROR (R91): READ_ERROR with the fetch index; in FAULTED and QUIESCING as R48 and R49 give. -/
def execDescriptorReadError (i : StreamId) (s : State) : Result :=
  s.onAnswer (.descriptor i) fun _ t =>
    let u := t.descriptorAnswered i
    if u.host.engine = .ready then u.faultStream i .readError (u.stream i).fetch else u

end Sys2Proof.Machine
end

