-- ==== Sys2Proof/Machine/DataPath.lean ====
section
/-!
DEFINITION. The Fetch Unit's data reads (Chapter 6) and the Store Unit's data writes (Chapter 7).
-/
namespace Sys2Proof.Machine

/-- The stream's data request has its answer: the in-flight mark clears. -/
def State.dataAnswered (s : State) (i : StreamId) : State := s.setStream i { s.stream i with dataInFlight := none }

/-- An error answer to a data request reports its cause with the ring index of the cursor's entry (R105, R130). -/
def State.dataFailed (s : State) (i : StreamId) (cause : StreamFault) : State :=
  match (s.stream i).cursor with
  | none => s
  | some k => s.faultStream i cause k.ringIndex

/-- The answer to a data read of the stream; with a write in flight there is no read to answer, and nothing changes (log
entry 8). -/
def State.onReadAnswer (s : State) (i : StreamId) (k : Nat → State → State) : Result :=
  s.onAnswer (.data i) fun r t =>
    match r.transfer with
    | .read n => k n t
    | .write _ => s

/-- The answer to a data write of the stream; with a read in flight there is no write to answer, and nothing changes (log
entry 8). -/
def State.onWriteAnswer (s : State) (i : StreamId) (k : State → State) : Result :=
  s.onAnswer (.data i) fun r t =>
    match r.transfer with
    | .read _ => s
    | .write _ => k t

/-! ## The Fetch Unit (R102 to R105) -/

/-- Samples that a data read covers (R103): the smallest of 16, the free space of staging and the samples not yet fetched. -/
def Stream.readSize (c : Stream) (sh : Shape) (e : Entry) (fetched : Nat) : Nat :=
  min 16 (min (sh.depth - c.samples.length) (e.count - fetched))

/-- The data read of R103. -/
def State.readData (s : State) (i : StreamId) (sh : Shape) (e : Entry) (fetched : Nat) : State :=
  let n := (s.stream i).readSize sh e fetched
  (s.setStream i { s.stream i with dataInFlight := some n }).issue (.data i)
    (hostAddress (e.buffer.toNat + 4 * fetched)) (.read n)

/-- The Fetch Unit looks at the conditions of R102. -/
def State.tryRead (s : State) (i : StreamId) : State :=
  let c := s.stream i
  match c.shape, c.cursorEntry with
  | some sh, some (e, fetched) =>
    match sh.kind with
    | .inStream _ => s
    | .outStream _ =>
      if s.host.engine = .ready ∧ c.mayIssue ∧ c.dataInFlight = none ∧ c.samples.length < sh.depth then
        s.readData i sh e fetched
      else s
  | _, _ => s

/-- DATA_READ_ISSUE (R102). -/
def execDataReadIssue (i : StreamId) (s : State) : Result := .next (s.tryRead i)

/-- The samples of a read as they join staging: the last carries the block-end mark when the read covered the last sample of
its block (R104). -/
def markSamples (endsBlock : Bool) : List Word → List Sample
  | [] => []
  | [w] => [{ value := w, blockEnd := endsBlock }]
  | w :: x :: rest => { value := w, blockEnd := false } :: markSamples endsBlock (x :: rest)

/-- A cursor moved on by `n` in its entry, to the next entry when it reaches the element count (R104, R129). -/
def Stream.cursorAfter (c : Stream) (e : Entry) (moved n : Nat) : Option Cursor :=
  if e.count ≤ moved + n then cursorBehind e.ringIndex c.list else some { ringIndex := e.ringIndex, moved := moved + n }

/-- The samples of a completed read join the tail of staging (R104). -/
def Stream.takeSamples (c : Stream) (samples : List Word) : Stream :=
  match c.cursorEntry with
  | none => c
  | some (e, fetched) =>
    { c with
      samples := c.samples ++ markSamples (decide (fetched + samples.length = e.count)) samples
      cursor := c.cursorAfter e fetched samples.length }

/-- DATA_READ_DONE (R104): discarded in FAULTED, in QUIESCING and in an engine FAULT (R105, R118). Words other than as many as were
asked for are no answer to the read, and change nothing (log entry 8). -/
def execDataReadDone (i : StreamId) (samples : List Word) (s : State) : Result :=
  s.onReadAnswer i fun n t =>
    let u := t.dataAnswered i
    if u.host.engine = .ready ∧ (u.stream i).mayIssue then
      if samples.length = n then u.setStream i ((u.stream i).takeSamples samples) else s
    else u

/-- DATA_READ_ERROR (R105): READ_ERROR; in FAULTED and QUIESCING as R48 and R49 give. -/
def execDataReadError (i : StreamId) (s : State) : Result :=
  s.onReadAnswer i fun _ t =>
    let u := t.dataAnswered i
    if u.host.engine = .ready then u.dataFailed i .readError else u

/-! ## The Store Unit (R127 to R131) -/

/-- Elements that a data write covers (R128): as many whole elements as 16 words, the words staged and the words of the block
not yet stored allow. -/
def Stream.writeSize (c : Stream) (sh : Shape) (e : Entry) (stored : Nat) : Nat :=
  let w := sh.kind.wordsPerElement
  min 16 (min (w * c.elements.length) (w * (e.count - stored))) / w

/-- The data write of R128: the oldest elements, at the buffer address plus 4 times the words already stored. -/
def State.writeData (s : State) (i : StreamId) (sh : Shape) (mode : TagMode) (e : Entry) (stored : Nat) : State :=
  let n := (s.stream i).writeSize sh e stored
  (s.setStream i { s.stream i with dataInFlight := some n }).issue (.data i)
    (hostAddress (e.buffer.toNat + 4 * (sh.kind.wordsPerElement * stored)))
    (.write (((s.stream i).elements.take n).flatMap (elementWords mode)))

/-- The Store Unit looks at the conditions of R127. -/
def State.tryWrite (s : State) (i : StreamId) : State :=
  let c := s.stream i
  match c.shape, c.cursorEntry with
  | some sh, some (e, stored) =>
    match sh.kind with
    | .outStream _ => s
    | .inStream mode =>
      if s.host.engine = .ready ∧ c.mayIssue ∧ c.dataInFlight = none ∧ c.elements ≠ [] then
        s.writeData i sh mode e stored
      else s
  | _, _ => s

/-- DATA_WRITE_ISSUE (R127). -/
def execDataWriteIssue (i : StreamId) (s : State) : Result := .next (s.tryWrite i)

/-- How many of the elements carry the condition. -/
def countCondition (k : Condition) (elements : List Element) : Nat :=
  (elements.filter fun x => decide (x.condition = k)).length

/-- The progress record after the elements are stored (R129, R133). -/
def Entry.store (e : Entry) (stored : List Element) : Entry :=
  { e with
    done := e.done + stored.length
    fresh := e.fresh + countCondition .fresh stored
    stale := e.stale + countCondition .stale stored
    damaged := e.damaged + countCondition .damaged stored
    missing := e.missing + countCondition .missing stored
    firstFrame :=
      match e.firstFrame with
      | some f => some f
      | none => stored.head?.map (·.frame)
    lastFrame :=
      match stored.getLast? with
      | some x => some x.frame
      | none => e.lastFrame }

/-- An entry that its last write has filled finishes COMPLETE in OPEN or LIVE (R129); in FAULTED or QUIESCING its mark stays
clear (R131). -/
def Entry.finishWhenFull (e : Entry) (mayFinish : Bool) : Entry :=
  if mayFinish && decide (e.done = e.count) then { e with finished := some .complete } else e

/-- A completed write of `n` elements: they leave staging, the cursor's entry takes them, and the cursor moves (R129, R131). -/
def Stream.takeWrite (c : Stream) (n : Nat) : Stream :=
  match c.cursorEntry with
  | none => c
  | some (e, stored) =>
    { c with
      elements := c.elements.drop n
      list :=
        c.list.map fun x =>
          if x.ringIndex = e.ringIndex then (x.store (c.elements.take n)).finishWhenFull c.mayIssue else x
      cursor := c.cursorAfter e stored n }

/-- A data write is answered without error (R129, R131): in OPEN or LIVE a block that it fills retires or waits. -/
def State.storeElements (s : State) (i : StreamId) (n : Nat) : State :=
  let t := s.setStream i ((s.stream i).takeWrite n)
  if (s.stream i).mayIssue then t.retireFinished i else t

/-- DATA_WRITE_DONE (R129). In an engine FAULT it is discarded (R136). -/
def execDataWriteDone (i : StreamId) (s : State) : Result :=
  s.onWriteAnswer i fun t =>
    match (t.stream i).dataInFlight with
    | none => t
    | some n => if t.host.engine = .ready then (t.dataAnswered i).storeElements i n else t.dataAnswered i

/-- DATA_WRITE_ERROR (R130): WRITE_ERROR, and the words stay in staging; in FAULTED and QUIESCING as R48 and R49 give. -/
def execDataWriteError (i : StreamId) (s : State) : Result :=
  s.onWriteAnswer i fun t =>
    let u := t.dataAnswered i
    if u.host.engine = .ready then u.dataFailed i .writeError else u

end Sys2Proof.Machine
end

