-- ==== Sys2Proof/Machine/CompletionRing.lean ====
section
/-!
DEFINITION. The Completion Unit's ring writes, the places that free, and the holdoff timer (Chapter 10).
-/
namespace Sys2Proof.Machine

/-! ## Writing the ring (R170 to R172) -/

/-- The Completion Unit looks at the conditions of R170 and writes the head record with the pass mark as it stands. -/
def State.tryRingWrite (s : State) : State :=
  match s.comp.config, s.comp.holding with
  | some k, r :: _ =>
    if s.host.engine = .ready ∧ s.inFlight .completionUnit = false ∧ s.comp.unacknowledged < k.size then
      s.issue .completionUnit (hostAddress (k.base.toNat + 32 * s.comp.produce)) (.write (r.words s.comp.passMark))
    else s
  | _, _ => s

/-- RING_WRITE_ISSUE (R170). -/
def execRingWriteIssue (s : State) : Result := .next s.tryRingWrite

/-- The holdoff of the control area, 0 before ENABLE. -/
def Completion.holdoffTime (c : Completion) : Nat :=
  match c.config with
  | none => 0
  | some k => k.holdoff

/-- A record has been written: it leaves the list, the produce index advances, the pass mark changes at a wrap, the
unacknowledged count rises, and the holdoff timer starts at the first record after a count of 0 (R170, R171, R175). -/
def Completion.recordWritten (c : Completion) : Completion :=
  { c with
    holding := c.holding.tail
    produce := (c.produce + 1) % c.ringSize
    passMark := if c.produce + 1 = c.ringSize then !c.passMark else c.passMark
    unacknowledged := c.unacknowledged + 1
    timer := if c.unacknowledged = 0 ∧ c.holdoffTime ≠ 0 then .running else c.timer }

/-! ## Places that free (R169) -/

/-- A place that is free can be handed on (R169). -/
def State.placeToHand (s : State) : Bool := decide (s.host.engine = .ready) && s.freePlace

/-- The EVENT_LOSS record enters with the count, which returns to 0 (R169). -/
def State.enterEventLoss (s : State) : State :=
  { s.enter (.event (.eventLoss s.comp.lossCount)) with comp.lossCount := 0 }

/-- A freed place is handed on to the first claim that stands, in the order of R169; with none the place stays free. -/
def State.handOn (s : State) : State :=
  if s.placeToHand then
    if 0 < s.comp.lossCount then s.enterEventLoss
    else if s.proc.state = .waitingPlace then s.readCommand
    else
      match s.waitingStream with
      | none => s
      | some i => s.serveRetirement i
  else s

/-- RING_WRITE_DONE (R170): the record leaves the list, and its place is handed on at once (R169). Out of READY it is discarded
(R172). -/
def execRingWriteDone (s : State) : Result :=
  s.onAnswer .completionUnit fun _ t =>
    if t.host.engine = .ready then ({ t with comp := t.comp.recordWritten } : State).handOn else t

/-- RING_WRITE_ERROR (R172): FAULT with cause COMPLETION_WRITE; the record stays at the head. -/
def execRingWriteError (s : State) : Result :=
  s.onAnswer .completionUnit fun _ t => if t.host.engine = .ready then t.enterFault .completionWrite else t

/-! The three claims by themselves. RING_WRITE_DONE hands its place on in its own step, so in a run these rows find no claim beside a
free place (log entry 12). -/

/-- EVENT_LOSS (R169), the first claim. -/
def execEventLoss (s : State) : Result :=
  .next (if s.placeToHand ∧ 0 < s.comp.lossCount then s.enterEventLoss else s)

/-- WAITING_COMMAND_SERVED (R153), the second claim. -/
def execWaitingCommandServed (s : State) : Result :=
  .next (if s.placeToHand ∧ s.comp.lossCount = 0 ∧ s.proc.state = .waitingPlace then s.readCommand else s)

/-- WAITING_RETIREMENT_SERVED (R96), the third claim. -/
def execWaitingRetirementServed (s : State) : Result :=
  .next
    (if s.placeToHand ∧ s.comp.lossCount = 0 ∧ s.proc.state ≠ .waitingPlace then
      match s.waitingStream with
      | none => s
      | some i => s.serveRetirement i
    else s)

/-! ## The holdoff timer (R175) -/

/-- HOLDOFF_EXPIRY (R175). -/
def execHoldoffExpiry (s : State) : Result :=
  .next (if s.host.engine = .ready ∧ s.comp.timer = .running then { s with comp.timer := .expired } else s)

end Sys2Proof.Machine
end

