-- ==== Sys2Proof/Machine/Dispatch.lean ====
section
/-!
DEFINITION. The dispatch: one arm for each command, each one call of its meaning.
-/
namespace Sys2Proof.Machine

/-- The effect of a command on everything but the queue. -/
def exec (i : Instr) (s : State) : Host.Outcome State Fault Refusal :=
  match i with
  | .enable => Sys2Proof.Machine.execEnable s
  | .softReset => Sys2Proof.Machine.execSoftReset s
  | .registerWrite reg full value => Sys2Proof.Machine.execRegisterWrite reg full value s
  | .hardReset source levels => Sys2Proof.Machine.execHardReset source levels s
  | .notifyCommandRing value => Sys2Proof.Machine.execNotifyCommandRing value s
  | .acknowledge value => Sys2Proof.Machine.execAcknowledge value s
  | .notifyBlockRing stream value => Sys2Proof.Machine.execNotifyBlockRing stream value s
  | .notifyNoRing selector value => Sys2Proof.Machine.execNotifyNoRing selector value s
  | .controlAreaLoaded words => Sys2Proof.Machine.execControlAreaLoaded words s
  | .controlReadError => Sys2Proof.Machine.execControlReadError s
  | .commandReadIssue => Sys2Proof.Machine.execCommandReadIssue s
  | .commandReadError => Sys2Proof.Machine.execCommandReadError s
  | .unknownCommand code record => Sys2Proof.Machine.execUnknownCommand code record s
  | .linkConfigure record => Sys2Proof.Machine.execLinkConfigure record s
  | .linkStart record => Sys2Proof.Machine.execLinkStart record s
  | .linkStop record => Sys2Proof.Machine.execLinkStop record s
  | .openStream record => Sys2Proof.Machine.execOpenStream record s
  | .closeStream record => Sys2Proof.Machine.execCloseStream record s
  | .restartStream record => Sys2Proof.Machine.execRestartStream record s
  | .queryStream record => Sys2Proof.Machine.execQueryStream record s
  | .loadSchedule record => Sys2Proof.Machine.execLoadSchedule record s
  | .commitSchedule record => Sys2Proof.Machine.execCommitSchedule record s
  | .cancelCommit record => Sys2Proof.Machine.execCancelCommit record s
  | .setSense record => Sys2Proof.Machine.execSetSense record s
  | .postEvent record => Sys2Proof.Machine.execPostEvent record s
  | .injectFault record => Sys2Proof.Machine.execInjectFault record s
  | .heldLoadPerformed => Sys2Proof.Machine.execHeldLoadPerformed s
  | .changeListReadDone entries => Sys2Proof.Machine.execChangeListReadDone entries s
  | .changeListReadError => Sys2Proof.Machine.execChangeListReadError s
  | .snapshotWriteDone error => Sys2Proof.Machine.execSnapshotWriteDone error s
  | .frameTimerExpiry => Sys2Proof.Machine.execFrameTimerExpiry s
  | .transmissionEnd => Sys2Proof.Machine.execTransmissionEnd s
  | .returnArrival words ragged => Sys2Proof.Machine.execReturnArrival words ragged s
  | .loopedReturn => Sys2Proof.Machine.execLoopedReturn s
  | .deadlineExpiry => Sys2Proof.Machine.execDeadlineExpiry s
  | .entryToStopped => Sys2Proof.Machine.execEntryToStopped s
  | .timeoutExpiry => Sys2Proof.Machine.execTimeoutExpiry s
  | .senseLineEdge line edge micros => Sys2Proof.Machine.execSenseLineEdge line edge micros s
  | .triggerEdgeReport => Sys2Proof.Machine.execTriggerEdgeReport s
  | .descriptorReadIssue stream => Sys2Proof.Machine.execDescriptorReadIssue stream s
  | .descriptorReadDone stream words => Sys2Proof.Machine.execDescriptorReadDone stream words s
  | .descriptorReadError stream => Sys2Proof.Machine.execDescriptorReadError stream s
  | .dataReadIssue stream => Sys2Proof.Machine.execDataReadIssue stream s
  | .dataReadDone stream samples => Sys2Proof.Machine.execDataReadDone stream samples s
  | .dataReadError stream => Sys2Proof.Machine.execDataReadError stream s
  | .dataWriteIssue stream => Sys2Proof.Machine.execDataWriteIssue stream s
  | .dataWriteDone stream => Sys2Proof.Machine.execDataWriteDone stream s
  | .dataWriteError stream => Sys2Proof.Machine.execDataWriteError stream s
  | .drainFinished stream => Sys2Proof.Machine.execDrainFinished stream s
  | .endOfClose stream => Sys2Proof.Machine.execEndOfClose stream s
  | .endOfRestart stream => Sys2Proof.Machine.execEndOfRestart stream s
  | .ringWriteIssue => Sys2Proof.Machine.execRingWriteIssue s
  | .ringWriteDone => Sys2Proof.Machine.execRingWriteDone s
  | .eventLoss => Sys2Proof.Machine.execEventLoss s
  | .waitingCommandServed => Sys2Proof.Machine.execWaitingCommandServed s
  | .waitingRetirementServed => Sys2Proof.Machine.execWaitingRetirementServed s
  | .ringWriteError => Sys2Proof.Machine.execRingWriteError s
  | .holdoffExpiry => Sys2Proof.Machine.execHoldoffExpiry s
  | .answerInResetting requester => Sys2Proof.Machine.execAnswerInResetting requester s
  | .resetPinReleased => Sys2Proof.Machine.execResetPinReleased s

end Sys2Proof.Machine
end

