-- ==== Sys2Proof/Safety.lean ====
section
/-!
DEFINITION. What the claims speak of: the taking of a command record, which rows answer a request of the host bus, and the
invariants that the manual's whole-machine sentences state.
-/
namespace Sys2Proof.Machine

/-! ## The words of the claims -/

/-- A command read is in flight, and its completion is taken now: the engine is READY and the processor READING (R153). -/
def State.Taking (s : State) : Prop :=
  s.host.engine = .ready ∧ s.proc.state = .reading ∧ s.inFlight .commandProcessor = true

/-- The Port without the requests of one tag. -/
def State.portWithout (s : State) (tag : Requester) : List Request :=
  s.port.filter fun r => !decide (r.requester = tag)

/-- All that the taking of a record does before its owner acts (R154): the read has its answer, the consumer has advanced by one,
modulo the size, and the processor is free. -/
def State.afterTaking (s : State) : State :=
  { s with
    port := s.portWithout .commandProcessor
    proc.consumer := (s.proc.consumer + 1) % s.proc.ringSize
    proc.state := .idle }

/-- What the COMMAND_DONE record of the record being taken will be identified by (R158). -/
def State.taken (s : State) (code : BitVec 8) (r : CommandRecord) : Command where
  code := code
  ringIndex := s.proc.consumer
  tag := r.tag

/-- The state with one more COMMAND_DONE record at the tail of the holding list and one reservation fewer (R158). -/
def State.withDone (s : State) (c : Command) (status : CommandStatus) (result : CommandResult) : State :=
  { s with
    comp.holding := s.comp.holding ++ [.commandDone c status result]
    comp.reservations := s.comp.reservations - 1 }

/-- What an event presented in READY comes to (R167, R168): it takes a free place, or is dropped and counted, and the count stops
at 65535. -/
def State.afterEvent (s : State) (e : Event) : State :=
  if s.freePlace then { s with comp.holding := s.comp.holding ++ [.event e] }
  else { s with comp.lossCount := min 65535 (s.comp.lossCount + 1) }

/-- Of the records of a step one is the event, or it found no place and the event-loss count shows a loss (R168). With a place
still free after the step, it has entered. -/
def Presented (s t : State) (e : Event) : Prop :=
  ∃ new, t.comp.holding = s.comp.holding ++ new
    ∧ (.event e ∈ new ∨ s.comp.lossCount < t.comp.lossCount ∨ t.comp.lossCount = 65535)
    ∧ (t.placesInUse < 32 → .event e ∈ new)

/-! ### Places and blocks -/

/-- The state after the write of the head record has completed: the head leaves, the produce index advances and the pass mark changes
at its wrap, the count rises, and the holdoff timer starts from a count of 0. -/
def State.afterRingWrite (s : State) (k : CompletionConfig) : State :=
  { s with
    port := s.portWithout .completionUnit
    comp.holding := s.comp.holding.drop 1
    comp.produce := if s.comp.produce + 1 = k.size then 0 else s.comp.produce + 1
    comp.passMark := if s.comp.produce + 1 = k.size then !s.comp.passMark else s.comp.passMark
    comp.unacknowledged := s.comp.unacknowledged + 1
    comp.timer := if s.comp.unacknowledged = 0 ∧ k.holdoff ≠ 0 then .running else s.comp.timer }

/-- The state in which a lost-event count has been served: its record at the tail, the count 0. -/
def State.lossServed (s : State) : State :=
  { s with comp.holding := s.comp.holding ++ [.event (.eventLoss s.comp.lossCount)], comp.lossCount := 0 }

/-- The state in which the waiting Command Processor has been served: the place reserved, the read issued, READING. -/
def State.commandServed (s : State) (ring : Ring) : State :=
  { s with
    comp.reservations := s.comp.reservations + 1
    proc.state := .reading
    port := s.port ++
      [{ requester := .commandProcessor, address := hostAddress (ring.base.toNat + 32 * s.proc.consumer),
         transfer := .read 8 }] }

/-- The state in which the waiting retirement of stream `i` has been served: the head's record at the tail, the retire index moved on by
the entries gone, and the cursor of a drained stream kept within the entries left. -/
def State.retirementServed (s : State) (i : StreamId) (e : Entry) (a : BlockStatus) (left : List Entry) (gone : Nat) : State :=
  { s with
    comp.holding := s.comp.holding ++ [.blockDone (blockDoneOf i (s.stream i).ringSize e a)]
    streams := s.streams.set i
      { s.stream i with
        list := left
        cursor := if (s.stream i).drained then (s.stream i).cursor.bind (cursorIn left) else (s.stream i).cursor
        retire := ((s.stream i).retire + gone) % (s.stream i).ringSize } }

/-- The Command Processor has looked for a record (R153): READY, IDLE and with a record posted, it has reserved a free place and issued
the read, or waits for a place. -/
def State.looked (s : State) : State :=
  match s.proc.ring with
  | none => s
  | some ring =>
    if s.host.engine = .ready ∧ s.proc.state = .idle ∧ s.proc.consumer ≠ s.proc.producer then
      if s.placesInUse < 32 then s.commandServed ring else { s with proc.state := .waitingPlace }
    else s

/-- The state after the end of a drain, with the records given entered, the entries given left in the list, finished, and the retire
index moved on by one for each that retired; the cursor is kept within the entries left, and is absent when there are none. -/
def State.afterDrain (s : State) (i : StreamId) (records : List Record) (left : List Entry) : State :=
  { s with
    comp.holding := s.comp.holding ++ records
    streams := s.streams.set i
      { s.stream i with
        drained := true
        list := left
        cursor := (s.stream i).cursor.bind (cursorIn left)
        retire :=
          if records = [] then (s.stream i).retire else ((s.stream i).retire + records.length) % (s.stream i).ringSize } }

/-! ### Frame starts -/

/-- The command makes the frame start of frame `f` from the state (R23, R26, R28): the frame timer, a LINK START without a trigger,
or a trigger report that serves the START. -/
def FrameStarts (s : State) (c : Instr) (f : FrameNo) : Prop :=
  (c = .frameTimerExpiry ∧ s.host.engine = .ready ∧ s.link.state = .running ∧ s.link.frameTimer = true
    ∧ f = s.link.frame + 1)
  ∨ (∃ r, c = .linkStart r ∧ s.Taking ∧ s.link.state = .stopped ∧ r.w1.getLsbD 0 = false ∧ f = 0)
  ∨ (c = .triggerEdgeReport ∧ s.host.engine = .ready ∧ s.link.state = .waiting ∧ f = 0
    ∧ ∃ p rest, s.lines.reports = p :: rest ∧ p.current = true)

/-- The frame start of frame `f` performs a swap: one is armed, and `f` is a round start (R77). -/
def State.swapsAt (s : State) (f : FrameNo) : Bool := s.sched.swapArmed && decide (f.toNat % 64 = 0)

/-- The bank in force for frame `f`, whose frame start is about to come (R77, R79). -/
def State.bankFor (s : State) (f : FrameNo) : Bank := if s.swapsAt f then s.sched.pending else s.sched.active

/-- The stream is an out-stream. -/
def Stream.isOut (c : Stream) : Bool :=
  match c.shape with
  | none => false
  | some sh => decide (sh.kind.lane = .outLane)

/-- How a swap moves a stream that the new active bank names or does not name (R39): OPEN and named becomes LIVE, an out-stream with
its run cleared; LIVE and not named becomes OPEN; every other keeps its state, and nothing else changes. -/
def Stream.moved (c : Stream) (named : Bool) : Stream :=
  match c.state with
  | .closed => c
  | .opened =>
    if named then
      { c with
        state := .live
        runFlag := if c.isOut then false else c.runFlag
        runCount := if c.isOut then 0 else c.runCount }
    else c
  | .live => if named then c else { c with state := .opened }
  | .faulted => c
  | .quiescing => c

/-- The schedule after a swap (R79, R82): the banks exchanged, the generation advanced, the armed flag clear, and the retiring mark set
when the window holds an entry of the old generation. -/
def State.scheduleSwapped (s : State) : Schedule :=
  { s.sched with
    active := s.sched.pending
    pending := s.sched.active
    generation := s.sched.generation + 1
    swapArmed := false
    retiring := s.ret.window.any fun e => decide (e.generation = s.sched.generation) }

/-- The context of stream `i` as frame `f` finds it, after the swap that its frame start performs, if any (R39). -/
def State.streamFor (s : State) (f : FrameNo) (i : StreamId) : Stream :=
  if s.swapsAt f then (s.stream i).moved (s.sched.pending.names i) else s.stream i

/-- The engine has entered FAULT with the cause given, and every block has acted as the table of R186 gathers; everything else
is frozen as it stood (R34, R16, R73, R82, R149, R177). -/
def FaultEntered (cause : FaultCause) (s t : State) : Prop :=
  t.host = { s.host with engine := .fault, lastFault := cause }
  ∧ t.port = s.port ∧ t.proc = s.proc ∧ t.comp = s.comp ∧ t.streams = s.streams ∧ t.freePool = s.freePool
  ∧ t.sched = { s.sched with retiring := false, load := .none }
  ∧ t.ret = { s.ret with window := [] }
  ∧ t.lines.sense = s.lines.sense ∧ t.lines.watch = none
  ∧ (∀ m : MarkerId, t.lines.markers[m] = { s.lines.markers[m] with active := false })
  ∧ (s.link.state = .unconfigured ∨ s.link.state = .stopped → t.link = s.link)
  ∧ (s.link.state = .waiting →
      t.link = { s.link with state := .stopped, timeout := none, stopCause := some .engineFault })
  ∧ (s.link.state = .running ∨ s.link.state = .stopping →
      t.link =
        { s.link with
          state := if s.link.transmitting then s.link.state else .stopped
          frameTimer := false
          stopCause := some .engineFault })

/-- A RESET action has taken the engine into RESETTING, with the effects that R187 lists. -/
def ResettingEntered (s t : State) : Prop :=
  t.host = { s.host with engine := .resetting }
  ∧ t.port = s.port ∧ t.proc = s.proc ∧ t.streams = s.streams ∧ t.freePool = s.freePool
  ∧ t.comp = { s.comp with timer := .stopped }
  ∧ t.sched = { s.sched with retiring := false, load := .none }
  ∧ t.ret = { s.ret with window := [] }
  ∧ t.link = Link.reset
  ∧ t.lines.watch = none
  ∧ (∀ k : LineId, t.lines.sense[k] = { select := .none, level := s.lines.sense[k].level, frameMark := false, suppressed := 0 })
  ∧ (∀ m : MarkerId, t.lines.markers[m] = { s.lines.markers[m] with active := false })

/-- The engine has entered OFF from RESETTING (R188): every block that waits for OFF holds its reset values (R20, R60, R86, R100,
R119, R137, R150, R164, R178); the base words and the last fault cause are kept. -/
def OffEntered (s t : State) : Prop :=
  t.host = { s.host with engine := .off }
  ∧ t.port = []
  ∧ t.proc = { ring := none, producer := 0, consumer := 0, state := .idle }
  ∧ t.comp =
      { config := none, holding := [], reservations := 0, produce := 0, acknowledge := 0, unacknowledged := 0,
        passMark := true, lossCount := 0, timer := .stopped }
  ∧ (∀ i : StreamId, t.stream i = Stream.reset)
  ∧ t.freePool = 512
  ∧ t.sched =
      { active := [], pending := [], generation := 0, swapArmed := false, retiring := false, load := .none, commit := none }
  ∧ t.ret = { window := [], lastStation := 0 }
  ∧ (∀ m : MarkerId, t.lines.markers[m] = { binding := none, active := false })

/-- The tag of the request that the row answers (R182); none for a row that is no answer of the host bus. -/
def answers : Instr → Option Requester
  | .enable => none
  | .softReset => none
  | .registerWrite _ _ _ => none
  | .hardReset _ _ => none
  | .notifyCommandRing _ => none
  | .acknowledge _ => none
  | .notifyBlockRing _ _ => none
  | .notifyNoRing _ _ => none
  | .controlAreaLoaded _ => some .hostWindow
  | .controlReadError => some .hostWindow
  | .commandReadIssue => none
  | .commandReadError => some .commandProcessor
  | .unknownCommand _ _ => some .commandProcessor
  | .linkConfigure _ => some .commandProcessor
  | .linkStart _ => some .commandProcessor
  | .linkStop _ => some .commandProcessor
  | .openStream _ => some .commandProcessor
  | .closeStream _ => some .commandProcessor
  | .restartStream _ => some .commandProcessor
  | .queryStream _ => some .commandProcessor
  | .loadSchedule _ => some .commandProcessor
  | .commitSchedule _ => some .commandProcessor
  | .cancelCommit _ => some .commandProcessor
  | .setSense _ => some .commandProcessor
  | .postEvent _ => some .commandProcessor
  | .injectFault _ => some .commandProcessor
  | .heldLoadPerformed => none
  | .changeListReadDone _ => some .scheduleUnit
  | .changeListReadError => some .scheduleUnit
  | .snapshotWriteDone _ => some .streamTable
  | .frameTimerExpiry => none
  | .transmissionEnd => none
  | .returnArrival _ _ => none
  | .loopedReturn => none
  | .deadlineExpiry => none
  | .entryToStopped => none
  | .timeoutExpiry => none
  | .senseLineEdge _ _ _ => none
  | .triggerEdgeReport => none
  | .descriptorReadIssue _ => none
  | .descriptorReadDone i _ => some (.descriptor i)
  | .descriptorReadError i => some (.descriptor i)
  | .dataReadIssue _ => none
  | .dataReadDone i _ => some (.data i)
  | .dataReadError i => some (.data i)
  | .dataWriteIssue _ => none
  | .dataWriteDone i => some (.data i)
  | .dataWriteError i => some (.data i)
  | .drainFinished _ => none
  | .endOfClose _ => none
  | .endOfRestart _ => none
  | .ringWriteIssue => none
  | .ringWriteDone => some .completionUnit
  | .eventLoss => none
  | .waitingCommandServed => none
  | .waitingRetirementServed => none
  | .ringWriteError => some .completionUnit
  | .holdoffExpiry => none
  | .answerInResetting tag => some tag
  | .resetPinReleased => none

/-- Every step that answers a next state from a state with `Inv` keeps `Inv`. -/
def KeptByEveryStep (Inv : State → Prop) : Prop := ∀ s t : State, Inv s → step s = .next t → Inv t

/-! ## Holding places (R157, R166) -/

/-- The reservation that the Command Processor holds for the record being read or the command held (R151). -/
def ProcessorState.reservation : ProcessorState → Nat
  | .idle => 0
  | .waitingPlace => 0
  | .reading => 1
  | .held _ => 1

/-- The reservations that somebody holds (R157): the processor, an outstanding START, STOP and COMMIT. -/
def State.reservationsHeld (s : State) : Nat :=
  s.proc.state.reservation + flag s.link.start.isSome + flag s.link.stop.isSome + flag s.sched.commit.isSome

/-- The holding list keeps its bound, every reservation has its holder, and each long command is outstanding only where R157
says it may be. FAULT freezes the holders (R162), and RESETTING has dropped those of the link (R187). -/
def PlacesInv (s : State) : Prop :=
  s.placesInUse ≤ 32
  ∧ (s.host.engine ≠ .resetting → s.comp.reservations = s.reservationsHeld)
  ∧ (s.host.engine ≠ .fault → s.host.engine ≠ .resetting →
      (s.link.start.isSome = true ↔ s.link.state = .waiting)
      ∧ (s.link.stop.isSome = true → s.link.state = .stopping)
      ∧ (s.sched.commit.isSome = true ↔ s.sched.swapArmed = true))
  ∧ (s.host.engine = .resetting → s.link.start = none ∧ s.link.stop = none ∧ s.link.state = .unconfigured)

/-! ## The completion ring (R166, R175) -/

/-- The counters of the completion ring under the values taken at ENABLE (R166). -/
def ringCountsAgree (c : Completion) : Prop :=
  match c.config with
  | none => True
  | some k =>
    1 ≤ k.threshold ∧ 0 < k.size ∧ c.produce < k.size ∧ c.acknowledge < k.size ∧ c.unacknowledged ≤ k.size
    ∧ c.produce = (c.acknowledge + c.unacknowledged) % k.size

/-- The produce index is the acknowledge index plus the unacknowledged count, the ring never holds more than its size, a ring
write is in flight only while there is room for it (R166, R170), and the holdoff timer runs or has run out only with a record
unacknowledged (R175, R176). -/
def RingInv (s : State) : Prop :=
  ringCountsAgree s.comp
  ∧ (s.host.engine = .ready → s.comp.config.isSome = true)
  ∧ (s.host.engine = .ready → s.inFlight .completionUnit = true → s.comp.unacknowledged < s.comp.ringSize)
  ∧ (s.comp.timer ≠ .stopped → 1 ≤ s.comp.unacknowledged)
  ∧ (s.host.engine = .off ∨ s.host.engine = .loading → s.comp.timer = .stopped)

/-! ## The staging pool and the staging queues (R41, R42) -/

/-- The words allocated to streams. -/
def State.allocated (s : State) : Nat := (allStreams.map fun i => (s.stream i).depth).sum

/-- A stream's queue fits in its depth, with room for the samples of a data read in flight (R42, R103), and holds what its
direction gives it. -/
def Stream.stagingFits (c : Stream) : Prop :=
  match c.shape with
  | none => True
  | some sh =>
    match sh.kind with
    | .outStream _ => c.elements = [] ∧ c.samples.length + c.dataInFlight.getD 0 ≤ sh.depth
    | .inStream _ => c.samples = [] ∧ sh.kind.wordsPerElement * c.elements.length ≤ sh.depth

/-- The stream is an out-stream whose read of `n` samples is in flight. -/
def Stream.reads (c : Stream) (n : Nat) : Prop :=
  match c.shape with
  | none => False
  | some sh => sh.kind.lane = .outLane ∧ c.dataInFlight = some n

/-- The free pool count is 512 less the depths of the streams that are not CLOSED (R41), every queue fits in its depth (R42), and
the Port's data reads are those the Fetch Unit knows of. -/
def StagingInv (s : State) : Prop :=
  s.freePool + s.allocated = 512
  ∧ (∀ i : StreamId, (s.stream i).state = .closed ↔ (s.stream i).shape = none)
  ∧ (∀ i : StreamId, (s.stream i).stagingFits)
  ∧ (∀ i : StreamId, (s.stream i).drained = true → (s.stream i).state = .quiescing ∧ (s.stream i).dataInFlight = none)
  ∧ (∀ r ∈ s.port, ∀ (i : StreamId) (n : Nat), r.requester = .data i → r.transfer = .read n → (s.stream i).reads n)

/-! ## The return window and the retiring mark (R8, R16, R82, R83) -/

/-- An entry of the window is of the current generation, or, while the mark is set, of the one before, and then it is the frame
before a round start (R82, R83). -/
def State.entryAnswered (s : State) (e : WindowEntry) : Prop :=
  e.generation = s.sched.generation
  ∨ (s.sched.retiring = true ∧ e.generation + 1 = s.sched.generation ∧ e.frame + 1 = s.link.frame
      ∧ s.link.frame.toNat % 64 = 0)

/-- The window holds the newest frames that have started and not resolved, at most two and in order (R8). It is empty unless
returns are taken (R16). Each entry's generation has a bank (R83), and the retiring mark is set only while an old entry remains
(R82). A STOPPING link in READY still has an entry in the window or a frame in transmission, since with neither it passes to STOPPED
at once (R32); in OFF, LOADING and RESETTING the link is UNCONFIGURED (R35). -/
def WindowInv (s : State) : Prop :=
  (s.ret.window.map (·.frame) = [] ∨ s.ret.window.map (·.frame) = [s.link.frame]
    ∨ s.ret.window.map (·.frame) = [s.link.frame - 1, s.link.frame])
  ∧ (s.takesArrivals = false → s.ret.window = [])
  ∧ (∀ e ∈ s.ret.window, s.entryAnswered e)
  ∧ (s.sched.retiring = true → s.windowHolds (s.sched.generation - 1) = true)
  ∧ (s.host.engine = .ready → s.link.state = .stopping → s.ret.window ≠ [] ∨ s.link.transmitting = true)
  ∧ (s.host.engine = .off ∨ s.host.engine = .loading ∨ s.host.engine = .resetting → s.link.state = .unconfigured)

/-! ## Streams and banks (R38, R50, R65, R156) -/

/-- A stream is QUIESCING. -/
def State.quiescing (s : State) (i : StreamId) : Prop := (s.stream i).state = .quiescing

/-- The processor is HELD (R151). -/
def State.isHeld (s : State) : Bool :=
  match s.proc.state with
  | .idle => false
  | .waitingPlace => false
  | .reading => false
  | .held _ => true

/-- The banks that the Schedule Unit holds, the working copy among them. -/
def Schedule.banks (c : Schedule) : List Bank :=
  match c.load with
  | .none => [c.active, c.pending]
  | .held _ _ _ => [c.active, c.pending]
  | .performing working _ _ _ => [c.active, c.pending, working]

/-- At most one command is held at a time, so at most one stream is QUIESCING, at most one LOAD is performed or held, and none of
these goes with another or with a QUERY (R156). -/
def HeldInv (s : State) : Prop :=
  (∀ i j : StreamId, s.quiescing i → s.quiescing j → i = j)
  ∧ (∀ i : StreamId, s.quiescing i → s.isHeld = true ∧ s.sched.load = .none ∧ s.inFlight .streamTable = false)
  ∧ (s.sched.load ≠ .none → s.isHeld = true ∧ s.inFlight .streamTable = false)
  ∧ (s.inFlight .streamTable = true → s.isHeld = true)

/-- A stream is LIVE exactly when the active bank names it and it is neither FAULTED nor QUIESCING, and a CLOSED stream is named
by no bank (R38); a stream quiescing for a CLOSE is named by neither (R50). -/
def NamesInv (s : State) : Prop :=
  HeldInv s
  ∧ (∀ i : StreamId, (s.stream i).state = .closed → ∀ b ∈ s.sched.banks, Bank.names b i = false)
  ∧ (∀ i : StreamId, (s.stream i).state = .live → s.sched.active.names i = true)
  ∧ (∀ i : StreamId, (s.stream i).state = .opened → s.sched.active.names i = false)
  ∧ (∀ i : StreamId, s.quiescing i → (s.stream i).pendingOperation = some .close → s.inSchedule i = false)

/-- A placement satisfies the rules of R63 that speak of its stream alone. -/
def State.placementFits (s : State) (p : Placement) : Prop :=
  match (s.stream p.stream).shape with
  | none => False
  | some sh => sh.kind.lane = p.lane ∧ p.channel.val < sh.channels

/-- Two placements of one bank are of different channels, and on one lane-slot they do not collide (R63, R64). -/
def State.placementsAgree (s : State) (p q : Placement) : Prop :=
  (p.stream, p.channel) ≠ (q.stream, q.channel)
  ∧ (p.lane = q.lane → p.slot = q.slot → s.streamsCollide p.stream q.stream = false)

/-- A shape is one that OPEN STREAM accepts (R44). -/
def Shape.legal (sh : Shape) : Prop :=
  1 ≤ sh.channels ∧ sh.channels ≤ 8 ∧ sh.period ∈ periods ∧ sh.phase < sh.period ∧ sh.depth ∈ stagingDepths
  ∧ 2 * (sh.channels * sh.kind.wordsPerElement) ≤ sh.depth ∧ sh.ringBase.toNat % 16 = 0 ∧ sh.ringSize ∈ ringSizes

/-- Every stream that is not CLOSED has a shape in the ranges of R37 and R44, every ring index is below the ring size, and the
descriptor list holds at most two descriptors, at consecutive ring positions from the retire index up to the fetch index, the one
being read among them (R88, R90). The cursor of a drained stream names an entry still in its list, and is absent when the list is empty
(R101, R127). The Port's descriptor reads are those the Block Ring Unit knows of. -/
def StreamsInv (s : State) : Prop :=
  (∀ i : StreamId, s.inFlight (.descriptor i) = true → (s.stream i).descriptorInFlight = true)
  ∧ (∀ i : StreamId, (s.stream i).state = .closed → (s.stream i).descriptorInFlight = false)
  ∧ (∀ i : StreamId, (s.stream i).drained = true →
      (s.stream i).state = .quiescing ∧ (s.stream i).descriptorInFlight = false
      ∧ ∀ k, (s.stream i).cursor = some k → ∃ e ∈ (s.stream i).list, e.ringIndex = k.ringIndex)
  ∧ ∀ (i : StreamId) (sh : Shape), (s.stream i).shape = some sh →
      sh.legal
      ∧ (s.stream i).producer < sh.ringSize ∧ (s.stream i).retire < sh.ringSize
      ∧ (s.stream i).fetch = ((s.stream i).retire + (s.stream i).list.length) % sh.ringSize
      ∧ (s.stream i).list.length + flag (s.stream i).descriptorInFlight ≤ 2
      ∧ (∀ (k : Nat) (e : Entry), (s.stream i).list[k]? = some e → e.ringIndex = ((s.stream i).retire + k) % sh.ringSize)
      ∧ ∀ n, (s.stream i).pendingOperation = some (.restart n) → n < sh.ringSize

/-- In READY the command ring is there (R183), and an IDLE processor has no record posted, since it looks at each notify and at each end
of a command (R153). -/
def PostedInv (s : State) : Prop :=
  s.host.engine = .ready → s.proc.ring.isSome = true ∧ (s.proc.state = .idle → s.proc.consumer = s.proc.producer)

/-- No claim on a holding place stands: no event is lost, and neither the processor nor a retirement waits. -/
def State.noClaim (s : State) : Prop :=
  s.comp.lossCount = 0 ∧ s.proc.state ≠ .waitingPlace ∧ ∀ i : StreamId, (s.stream i).retirementWaiting = false

/-- Free places and claims never stand together (R167), while the holding list serves its claims: FAULT and RESETTING withdraw them
(R162, R177, R187). The rest rules out states that no run reaches: a READY engine has its command ring (R183), so a served processor
reads, and every stream but a CLOSED one has a shape (R37), so its list of at most two leaves no third block as a claim. -/
def ClaimsInv (s : State) : Prop :=
  StreamsInv s
  ∧ (s.host.engine = .ready → s.proc.ring.isSome = true)
  ∧ (∀ i : StreamId, (s.stream i).state = .closed ↔ (s.stream i).shape = none)
  ∧ (s.host.engine ≠ .fault → s.host.engine ≠ .resetting → s.placesInUse < 32 → s.noClaim)

/-- A bank satisfies every placement rule (R63). -/
def State.bankFits (s : State) (b : Bank) : Prop :=
  (∀ p ∈ b, s.placementFits p)
  ∧ b.Pairwise s.placementsAgree
  ∧ (∀ (lane : Lane) (slot : SlotId), (b.onSlot lane slot).length ≤ 4)

/-- Every bank satisfies every placement rule, the active bank is complete, and so is the pending bank while a swap is armed
(R63, R65, R74). -/
def BanksInv (s : State) : Prop :=
  NamesInv s
  ∧ (∀ i : StreamId, (s.stream i).state = .closed ↔ (s.stream i).shape = none)
  ∧ (∀ b ∈ s.sched.banks, s.bankFits b)
  ∧ s.lowestLacking s.sched.active = none
  ∧ (s.sched.swapArmed = true → s.lowestLacking s.sched.pending = none ∧ s.sched.load = .none)

end Sys2Proof.Machine
end

