-- ==== Sys2Proof/Certificates/Slice0/Obligations.lean ====
section
/-!
DEFINITION. The statements for the provers: what the step does with the queue, what each command does and what it leaves alone,
and the invariants that every step keeps. A statement whose docstring names a log entry rests on a choice of the model there.
-/
open Sys2Proof Sys2Proof.Machine

/-- Of the Completion Unit's state only the records have grown at the tail of the holding list, and the event-loss count. -/
def RecordsGrow (a b : Completion) : Prop :=
  (∃ new, b.holding = a.holding ++ new)
  ∧ { b with holding := [], lossCount := 0 } = { a with holding := [], lossCount := 0 }

/-! ## The step and the queue -/

/-- The step runs the command at the front of the queue on the state with the queue's rest. -/
def Obligations.StepRunsFrontCommand : Prop :=
  ∀ (s : State) (c : Instr) (rest : List Instr), s.pending = c :: rest → step s = exec c { s with pending := rest }

/-- No command changes the queue, so a step takes exactly one command from it. -/
def Claims.CommandsLeaveTheQueue : Prop :=
  (∀ (c : Instr) (s t : State), exec c s = .next t → t.pending = s.pending)
  ∧ ∀ (c : Instr) (rest : List Instr) (s t : State), s.pending = c :: rest → step s = .next t → t.pending = rest

/-- Every command answers a next state in every state and for every operand. -/
def Claims.EveryCommandCompletes : Prop := ∀ (c : Instr) (s : State), ∃ t, exec c s = .next t

/-- An answer for which no request is in flight changes nothing: with no request of its tag, with a data request of the other kind,
or with another number of samples or change entries than were asked for where they would be taken (the model's choice, log entry 8:
the host bus answers each request once, with what was asked for). -/
def Claims.AnswersWithoutRequestChangeNothing : Prop :=
  (∀ (c : Instr) (s : State) (tag : Requester), answers c = some tag → s.inFlight tag = false → exec c s = .next s)
  ∧ (∀ (s : State) (i : StreamId) (q : Request), s.host.engine ≠ .resetting → s.request (.data i) = some q →
      (∀ ws, q.transfer = .write ws →
        exec (.dataReadError i) s = .next s ∧ ∀ samples, exec (.dataReadDone i samples) s = .next s)
      ∧ (∀ n, q.transfer = .read n → exec (.dataWriteDone i) s = .next s ∧ exec (.dataWriteError i) s = .next s)
      ∧ ∀ (n : Nat) (samples : List Word), q.transfer = .read n → samples.length ≠ n → s.host.engine = .ready →
          ((s.stream i).state = .opened ∨ (s.stream i).state = .live) → exec (.dataReadDone i samples) s = .next s)
  ∧ ∀ (s : State) (q : Request) (c : Command) (working : Bank) (a : Addr) (count next : Nat) (entries : List Word),
      s.host.engine = .ready → s.proc.state = .held c → s.request .scheduleUnit = some q →
      s.sched.load = .performing working a count next → q.transfer.length ≠ entries.length →
      exec (.changeListReadDone entries) s = .next s

/-- The queue is the step's alone, every command completes, and an answer to nothing changes nothing. -/
def Obligations.CommandsLeaveTheQueueAndComplete : Prop :=
  Claims.CommandsLeaveTheQueue ∧ Claims.EveryCommandCompletes ∧ Claims.AnswersWithoutRequestChangeNothing

/-! ## The register window and the engine states (Chapter 11) -/

/-- What every block holds after a reset, by the tables of the manual. -/
def Obligations.ResetValues : Prop :=
  State.reset.host.baseLow = 0 ∧ State.reset.host.baseHigh = 0
  ∧ State.reset.host.engine = .off ∧ State.reset.host.lastFault = .none
  ∧ OffEntered State.reset State.reset
  ∧ State.reset.link = Link.reset
  ∧ Link.reset.state = .unconfigured ∧ Link.reset.config = none ∧ Link.reset.frame = 0 ∧ Link.reset.frameTimer = false
  ∧ Link.reset.timeout = none ∧ Link.reset.stopCause = none ∧ Link.reset.badRun = 0
  ∧ Link.reset.corruptOut = false ∧ Link.reset.dropReturn = false ∧ Link.reset.start = none ∧ Link.reset.stop = none
  ∧ Stream.reset.state = .closed ∧ Stream.reset.shape = none ∧ Stream.reset.samples = [] ∧ Stream.reset.elements = []
  ∧ Stream.reset.producer = 0 ∧ Stream.reset.fetch = 0 ∧ Stream.reset.retire = 0 ∧ Stream.reset.list = []
  ∧ Stream.reset.descriptorInFlight = false ∧ Stream.reset.cursor = none ∧ Stream.reset.dataInFlight = none
  ∧ Stream.reset.lastSamples = [] ∧ Stream.reset.runFlag = false ∧ Stream.reset.runCount = 0
  ∧ Stream.reset.faultCause = none ∧ Stream.reset.pendingOperation = none
  ∧ State.reset.lines.watch = none
  ∧ (∀ k : LineId, State.reset.lines.sense[k].select = .none ∧ State.reset.lines.sense[k].frameMark = false
      ∧ State.reset.lines.sense[k].suppressed = 0)
  ∧ State.reset.interruptLine = false ∧ State.reset.statusWord = 0

/-- A write to the register window that is neither an action nor a notify: a whole word to a base word is kept, and every other
one changes nothing. -/
def Claims.RegisterWriteKeepsBaseWords : Prop :=
  ∀ (s : State) (v : Word),
    (s.host.resetHeld = false →
      exec (.registerWrite .baseLow true v) s = .next { s with host.baseLow := v }
      ∧ exec (.registerWrite .baseHigh true v) s = .next { s with host.baseHigh := v })
    ∧ exec (.registerWrite .status true v) s = .next s
    ∧ (v.getLsbD 0 = false → v.getLsbD 1 = false → exec (.registerWrite .control true v) s = .next s)
    ∧ ∀ reg : Register, exec (.registerWrite reg false v) s = .next s

/-- While the reset pin is held active, every write to the register window is ignored. -/
def Claims.HeldResetPinIgnoresWrites : Prop :=
  ∀ s : State, s.host.resetHeld = true →
    exec .enable s = .next s ∧ exec .softReset s = .next s
    ∧ (∀ reg full v, exec (.registerWrite reg full v) s = .next s)
    ∧ (∀ v, exec (.notifyCommandRing v) s = .next s ∧ exec (.acknowledge v) s = .next s)
    ∧ (∀ i v, exec (.notifyBlockRing i v) s = .next s) ∧ ∀ sel v, exec (.notifyNoRing sel v) s = .next s

/-- What a read of the register window returns: the base words as written, 0 from the two write-only words, and the engine status
word with each field at its bits and 0 in every bit the table does not assign. -/
def Claims.RegisterReads : Prop :=
  ∀ s : State,
    s.readRegister .baseLow = s.host.baseLow ∧ s.readRegister .baseHigh = s.host.baseHigh
    ∧ s.readRegister .control = 0 ∧ s.readRegister .notify = 0
    ∧ field (s.readRegister .status) 0 3 = s.host.engine.code
    ∧ field (s.readRegister .status) 4 3 = s.link.state.code
    ∧ field (s.readRegister .status) 8 2 = stopCauseCode s.link.stopCause
    ∧ field (s.readRegister .status) 12 3 = s.host.lastFault.code
    ∧ ((s.readRegister .status).getLsbD 16 = true ↔ s.interruptLine = true)
    ∧ s.readRegister .status &&& 0xFFFE8C88 = 0

/-- The register window: plain writes, the reset pin, and reads. -/
def Obligations.RegisterWindowAccess : Prop :=
  Claims.RegisterWriteKeepsBaseWords ∧ Claims.HeldResetPinIgnoresWrites ∧ Claims.RegisterReads

/-- The interrupt line: the three grounds, and no others; never with an empty ring while READY; and by the holdoff alone where
the threshold cannot be met. -/
def Obligations.InterruptLineLevel : Prop :=
  (∀ s : State,
    s.interruptLine = true ↔
      s.host.engine = .fault
      ∨ (s.host.engine = .ready ∧ ∃ k, s.comp.config = some k ∧ k.threshold ≤ s.comp.unacknowledged)
      ∨ (s.host.engine = .ready ∧ s.comp.timer = .expired))
  ∧ (∀ s : State, RingInv s → s.host.engine = .ready → s.comp.unacknowledged = 0 → s.interruptLine = false)
  ∧ ∀ (s : State) (k : CompletionConfig), RingInv s → s.host.engine = .ready → s.comp.config = some k →
      k.size < k.threshold → (s.interruptLine = true ↔ s.comp.timer = .expired)

/-- ENABLE: in OFF it starts the loading of the control area, or enters FAULT with no read issued when the base is not a multiple
of 32; in every other engine state it changes nothing. -/
def Claims.EnableStartsLoading : Prop :=
  ∀ s : State, s.host.resetHeld = false →
    (s.host.engine = .off → (address s.host.baseLow s.host.baseHigh).toNat % 32 = 0 →
      exec .enable s =
        .next
          { s with
            host.engine := .loading
            port := s.port ++
              [{ requester := .hostWindow, address := address s.host.baseLow s.host.baseHigh, transfer := .read 8 }] })
    ∧ (s.host.engine = .off → (address s.host.baseLow s.host.baseHigh).toNat % 32 ≠ 0 →
        ∃ t, exec .enable s = .next t ∧ FaultEntered .controlInvalid s t)
    ∧ (s.host.engine ≠ .off → exec .enable s = .next s)

/-- The six fields of a control area pass their table. -/
def controlAreaValid (ws : Vector Word 8) : Prop :=
  (address ws[0] ws[1]).toNat % 32 = 0 ∧ (address ws[2] ws[3]).toNat % 32 = 0
  ∧ (∃ k, 2 ≤ k ∧ k ≤ 10 ∧ ws[4].toNat = 2 ^ k) ∧ (∃ k, 2 ≤ k ∧ k ≤ 12 ∧ ws[5].toNat = 2 ^ k)
  ∧ 1 ≤ field ws[6] 0 8

/-- The control-area read completes in LOADING: with every field valid the two rings are taken and the engine is READY, all other
blocks unchanged; with a field at fault the engine enters FAULT with cause CONTROL_INVALID. -/
def Claims.ControlAreaTaken : Prop :=
  ∀ (s : State) (ws : Vector Word 8), s.host.engine = .loading → s.inFlight .hostWindow = true →
    (controlAreaValid ws →
      exec (.controlAreaLoaded ws) s =
        .next
          { s with
            host.engine := .ready
            port := s.portWithout .hostWindow
            proc.ring := some { base := address ws[0] ws[1], size := ws[4].toNat }
            proc.producer := 0
            proc.consumer := 0
            comp.config := some
              { base := address ws[2] ws[3], size := ws[5].toNat, threshold := field ws[6] 0 8, holdoff := field ws[6] 16 16 }
            comp.produce := 0
            comp.acknowledge := 0
            comp.unacknowledged := 0
            comp.passMark := true })
    ∧ (¬ controlAreaValid ws →
        ∃ t, exec (.controlAreaLoaded ws) s = .next t
          ∧ FaultEntered .controlInvalid { s with port := s.portWithout .hostWindow } t)

/-- ENABLE and the control area that it loads. -/
def Obligations.EnableLoadsTheControlArea : Prop := Claims.EnableStartsLoading ∧ Claims.ControlAreaTaken

/-- The three error answers that enter FAULT: the control-area read in LOADING, a command read and a ring write in READY. The
consumer does not advance, the record stays at the head of the holding list and no count of the ring moves. That a link with a frame
in transmission shows the stop cause ENGINE_FAULT at once and its older state until the transmission ends is log entry 15. -/
def Obligations.RingErrorsEnterFault : Prop :=
  ∀ s : State,
    (s.host.engine = .loading → s.inFlight .hostWindow = true →
      ∃ t, exec .controlReadError s = .next t ∧ FaultEntered .controlRead { s with port := s.portWithout .hostWindow } t)
    ∧ (s.host.engine = .ready → s.inFlight .commandProcessor = true →
        ∃ t, exec .commandReadError s = .next t
          ∧ FaultEntered .commandRead { s with port := s.portWithout .commandProcessor } t)
    ∧ (s.host.engine = .ready → s.inFlight .completionUnit = true →
        ∃ t, exec .ringWriteError s = .next t
          ∧ FaultEntered .completionWrite { s with port := s.portWithout .completionUnit } t)

/-- The rows that answer a command read, an error first and then a record of each code. -/
def commandReadRows (k : BitVec 8) (r : CommandRecord) : List Instr :=
  [.commandReadError, .unknownCommand k r, .linkConfigure r, .linkStart r, .linkStop r, .openStream r, .closeStream r,
    .restartStream r, .queryStream r, .loadSchedule r, .commitSchedule r, .cancelCommit r, .setSense r, .postEvent r,
    .injectFault r]

/-- An answer of any row that comes in FAULT is discarded: the request is in flight no longer, and no ring index, count, staging,
cursor, block or fault cause changes. Of the stream's context only its in-flight mark clears. -/
def Obligations.AnswersInFaultAreDiscarded : Prop :=
  ∀ s : State, s.host.engine = .fault →
    (s.inFlight .hostWindow = true → ∀ ws,
      exec (.controlAreaLoaded ws) s = .next { s with port := s.portWithout .hostWindow }
      ∧ exec .controlReadError s = .next { s with port := s.portWithout .hostWindow })
    ∧ (s.inFlight .completionUnit = true →
      exec .ringWriteDone s = .next { s with port := s.portWithout .completionUnit }
      ∧ exec .ringWriteError s = .next { s with port := s.portWithout .completionUnit })
    ∧ (s.inFlight .commandProcessor = true → ∀ (k : BitVec 8) (r : CommandRecord), ∀ c ∈ commandReadRows k r,
        exec c s = .next { s with port := s.portWithout .commandProcessor })
    ∧ (s.inFlight .scheduleUnit = true → ∀ ws,
        exec (.changeListReadDone ws) s = .next { s with port := s.portWithout .scheduleUnit }
        ∧ exec .changeListReadError s = .next { s with port := s.portWithout .scheduleUnit })
    ∧ (s.inFlight .streamTable = true → ∀ b,
        exec (.snapshotWriteDone b) s = .next { s with port := s.portWithout .streamTable })
    ∧ ∀ i : StreamId,
        (s.inFlight (.descriptor i) = true → ∀ c t, (c = .descriptorReadError i ∨ ∃ ws, c = .descriptorReadDone i ws) →
          t = { s with
            port := s.portWithout (.descriptor i)
            streams := s.streams.set i { s.stream i with descriptorInFlight := false } } →
          exec c s = .next t)
        ∧ ∀ (q : Request) (t : State), s.request (.data i) = some q →
            t = { s with
              port := s.portWithout (.data i)
              streams := s.streams.set i { s.stream i with dataInFlight := none } } →
            (∀ n ws, q.transfer = .read n →
              exec (.dataReadDone i ws) s = .next t ∧ exec (.dataReadError i) s = .next t)
            ∧ (∀ ws, q.transfer = .write ws →
              exec (.dataWriteDone i) s = .next t ∧ exec (.dataWriteError i) s = .next t)

/-- RESET: the engine passes to RESETTING while requests are in flight and to OFF at once when there are none; in RESETTING it
has no further effect. -/
def Claims.SoftResetEntersResetting : Prop :=
  ∀ s : State, s.host.resetHeld = false →
    (s.host.engine ≠ .resetting → s.port ≠ [] → ∃ t, exec .softReset s = .next t ∧ ResettingEntered s t)
    ∧ (s.host.engine ≠ .resetting → s.port = [] →
        ∃ t, exec .softReset s = .next t ∧ OffEntered s t ∧ t.link = Link.reset ∧ t.lines.watch = none
          ∧ ∀ k : LineId, t.lines.sense[k] =
              { select := .none, level := s.lines.sense[k].level, frameMark := false, suppressed := 0 })
    ∧ (s.host.engine = .resetting → exec .softReset s = .next s)

/-- In RESETTING the Port discards the answer to a request in flight, and the last answer brings OFF. In any other engine state
the row changes nothing: there an answer is another row's (the model's choice, log entry 9). -/
def Claims.AnswerInResettingIsDiscarded : Prop :=
  ∀ (s : State) (tag : Requester),
    (s.host.engine = .resetting → s.inFlight tag = true → s.portWithout tag ≠ [] →
      exec (.answerInResetting tag) s = .next { s with port := s.portWithout tag })
    ∧ (s.host.engine = .resetting → s.inFlight tag = true → s.portWithout tag = [] →
        ∃ t, exec (.answerInResetting tag) s = .next t ∧ OffEntered s t ∧ t.link = s.link
          ∧ t.lines.sense = s.lines.sense ∧ t.lines.watch = s.lines.watch)
    ∧ (s.host.engine ≠ .resetting → exec (.answerInResetting tag) s = .next s)

/-- The soft reset, from the RESET action to OFF. -/
def Obligations.SoftResetReachesOff : Prop := Claims.SoftResetEntersResetting ∧ Claims.AnswerInResettingIsDiscarded

/-- A hard reset takes the engine into OFF at once from any state, with the values of a hard reset and each sense line at the level
it then has; a reset from the pin leaves the pin held, and its release changes nothing else (log entry 1 for the levels). -/
def Obligations.HardResetTakesEffectAtOnce : Prop :=
  (∀ (s : State) (source : ResetSource) (levels : BitVec 8), ∃ t, exec (.hardReset source levels) s = .next t
    ∧ t.host.engine = .off ∧ t.host.baseLow = 0 ∧ t.host.baseHigh = 0 ∧ t.host.lastFault = .none
    ∧ OffEntered t t ∧ t.link = Link.reset ∧ t.lines.watch = none
    ∧ (∀ k : LineId, t.lines.sense[k] =
        { select := .none, level := levels.getLsbD k.val, frameMark := false, suppressed := 0 })
    ∧ t.interruptLine = false ∧ t.statusWord = 0
    ∧ (source = .pin → t.host.resetHeld = true))
  ∧ ∀ s : State, exec .resetPinReleased s = .next { s with host.resetHeld := false }

/-! ## Notifies and the interrupt moderation (Chapters 5, 9, 10) -/

/-- A notify with selector 0: stray for a value outside the ring or one that would withdraw the record being read; otherwise the
producer becomes the value, a wait for a place ends when no record is left to read, and the Command Processor looks for a record in
the same step: IDLE with one posted, it reserves a free place and issues the read, or waits for a place. Out of READY nothing
changes. -/
def Obligations.CommandRingNotify : Prop :=
  ∀ (s : State) (v : BitVec 16) (ring : Ring), s.host.resetHeld = false →
    (s.host.engine ≠ .ready → exec (.notifyCommandRing v) s = .next s)
    ∧ (s.host.engine = .ready → s.proc.ring = some ring →
        (ring.size ≤ v.toNat ∨ (s.proc.state = .reading ∧ v.toNat = s.proc.consumer) →
          exec (.notifyCommandRing v) s = .next (s.afterEvent (.strayNotify 0 v)))
        ∧ (v.toNat < ring.size → (s.proc.state = .reading → v.toNat ≠ s.proc.consumer) →
          exec (.notifyCommandRing v) s =
            .next ({ s with
              proc.producer := v.toNat
              proc.state :=
                if s.proc.state = .waitingPlace ∧ v.toNat = s.proc.consumer then .idle else s.proc.state } : State).looked))

/-- An acknowledge: stray for a value outside the ring or an advance above the unacknowledged count; nothing for an advance of 0;
otherwise the index and the count move by the advance, and the holdoff timer follows its table. Out of READY it changes nothing,
whether or not a configuration is held. -/
def Obligations.AcknowledgeMovesTheIndex : Prop :=
  ∀ (s : State) (v : BitVec 16), s.host.resetHeld = false →
    (s.host.engine ≠ .ready → exec (.acknowledge v) s = .next s)
    ∧ ∀ (k : CompletionConfig) (advance : Nat), s.host.engine = .ready → s.comp.config = some k →
        s.comp.acknowledge < k.size → advance = (v.toNat + (k.size - s.comp.acknowledge)) % k.size →
        (k.size ≤ v.toNat → exec (.acknowledge v) s = .next (s.afterEvent (.strayNotify 1 v)))
        ∧ (v.toNat < k.size → advance = 0 → exec (.acknowledge v) s = .next s)
        ∧ (v.toNat < k.size → s.comp.unacknowledged < advance →
            exec (.acknowledge v) s = .next (s.afterEvent (.strayNotify 1 v)))
        ∧ (v.toNat < k.size → 0 < advance → advance ≤ s.comp.unacknowledged →
            exec (.acknowledge v) s =
              .next { s with
                comp.acknowledge := v.toNat
                comp.unacknowledged := s.comp.unacknowledged - advance
                comp.timer :=
                  if s.comp.unacknowledged = advance then .stopped
                  else if s.comp.timer = .expired then .running else s.comp.timer })

/-- A notify of a stream's block ring: stray for a CLOSED stream, for a value outside the ring, and for a value that withdraws a
descriptor taken or being fetched; otherwise the producer becomes the value and nothing else changes. -/
def Obligations.BlockRingNotify : Prop :=
  ∀ (s : State) (i : StreamId) (v : BitVec 16), s.host.resetHeld = false →
    (s.host.engine ≠ .ready → exec (.notifyBlockRing i v) s = .next s)
    ∧ (s.host.engine = .ready → (s.stream i).state = .closed →
        exec (.notifyBlockRing i v) s = .next (s.afterEvent (.strayNotify (2 + i.val) v)))
    ∧ ∀ (sh : Shape) (taken : Nat), s.host.engine = .ready → (s.stream i).state ≠ .closed → (s.stream i).shape = some sh →
        (s.stream i).retire < sh.ringSize →
        taken = (s.stream i).list.length + (if (s.stream i).descriptorInFlight then 1 else 0) →
        (sh.ringSize ≤ v.toNat ∨ (v.toNat + (sh.ringSize - (s.stream i).retire)) % sh.ringSize < taken →
          exec (.notifyBlockRing i v) s = .next (s.afterEvent (.strayNotify (2 + i.val) v)))
        ∧ (v.toNat < sh.ringSize → taken ≤ (v.toNat + (sh.ringSize - (s.stream i).retire)) % sh.ringSize →
          exec (.notifyBlockRing i v) s =
            .next { s with streams := s.streams.set i { s.stream i with producer := v.toNat } })

/-- A notify whose selector names no ring presents STRAY_NOTIFY with selector and value as written, and does nothing else; out of
READY it presents nothing. -/
def Obligations.NotifyWithoutRingIsStray : Prop :=
  ∀ (s : State) (sel : BitVec 8) (v : BitVec 16), s.host.resetHeld = false → 33 < sel.toNat →
    (s.host.engine = .ready → exec (.notifyNoRing sel v) s = .next (s.afterEvent (.strayNotify sel.toNat v)))
    ∧ (s.host.engine ≠ .ready → exec (.notifyNoRing sel v) s = .next s)

/-- The holdoff timer runs out: a RUNNING timer becomes EXPIRED and the line asserts; nothing happens otherwise. -/
def Claims.HoldoffTimerExpires : Prop :=
  ∀ s : State,
    (s.host.engine = .ready → s.comp.timer = .running →
      ∃ t, exec .holdoffExpiry s = .next t ∧ t = { s with comp.timer := .expired } ∧ t.interruptLine = true)
    ∧ (¬ (s.host.engine = .ready ∧ s.comp.timer = .running) → exec .holdoffExpiry s = .next s)

/-! ## The Command Processor (Chapter 9)

A command that ends or becomes outstanding leaves the processor IDLE, and the processor then looks for its next record in the same
step (R153, R156, R157): `State.looked` below. One that is held looks when it ends. -/

/-- The Command Processor begins to take a record: with a place free it reserves the place, issues the 32-byte read and is
READING; with none it is WAITING_PLACE; where the conditions do not hold nothing changes. In a run the look is made by each notify
and by each end of a command, so that this row by itself finds nothing to read (log entry 29). -/
def Claims.CommandReadBegins : Prop :=
  ∀ (s : State) (ring : Ring),
    (s.host.engine = .ready → s.proc.state = .idle → s.proc.consumer ≠ s.proc.producer → s.proc.ring = some ring →
      (s.freePlace = true →
        exec .commandReadIssue s =
          .next { s with
            comp.reservations := s.comp.reservations + 1
            proc.state := .reading
            port := s.port ++
              [{ requester := .commandProcessor, address := hostAddress (ring.base.toNat + 32 * s.proc.consumer),
                 transfer := .read 8 }] })
      ∧ (s.freePlace = false → exec .commandReadIssue s = .next { s with proc.state := .waitingPlace }))
    ∧ (¬ (s.host.engine = .ready ∧ s.proc.state = .idle ∧ s.proc.consumer ≠ s.proc.producer) →
        exec .commandReadIssue s = .next s)

/-- A code that names no command: UNKNOWN_COMMAND at once with the code as read, and no field examined. The processor then looks for
the next record. -/
def Claims.UnknownCommandIsAnswered : Prop :=
  ∀ (s : State) (code : BitVec 8) (r : CommandRecord), s.Taking →
    exec (.unknownCommand code r) s = .next (s.afterTaking.withDone (s.taken code r) .unknownCommand .none).looked

/-- The reading of a command record, and the answer to a code that names no command. -/
def Obligations.CommandRecordsAreRead : Prop := Claims.CommandReadBegins ∧ Claims.UnknownCommandIsAnswered

/-- POST EVENT: the event is presented before the command's own record, and the result says whether it entered. -/
def Obligations.PostEventPresentsFirst : Prop :=
  ∀ (s : State) (r : CommandRecord), s.Taking →
    (255 < r.w1.toNat →
      exec (.postEvent r) s = .next (s.afterTaking.withDone (s.taken 0x40 r) .badParameter .none).looked)
    ∧ (r.w1.toNat ≤ 255 → s.freePlace = true →
        exec (.postEvent r) s =
          .next (({ s.afterTaking with
            comp.holding := s.comp.holding ++ [.event (.hostPosted r.w1.toNat r.w2)] } : State).withDone
              (s.taken 0x40 r) .ok (.posted true)).looked)
    ∧ (r.w1.toNat ≤ 255 → s.freePlace = false →
        exec (.postEvent r) s =
          .next (({ s.afterTaking with comp.lossCount := min 65535 (s.comp.lossCount + 1) } : State).withDone
            (s.taken 0x40 r) .ok (.posted false)).looked)

/-- INJECT FAULT: the kind first, then the link state, then the arm of that kind; an accepted one sets that arm alone. -/
def Obligations.InjectFaultArms : Prop :=
  ∀ (s : State) (r : CommandRecord), s.Taking →
    (r.w1 ≠ 0 → r.w1 ≠ 1 →
      exec (.injectFault r) s = .next (s.afterTaking.withDone (s.taken 0x41 r) .badParameter .none).looked)
    ∧ (r.w1 = 0 ∨ r.w1 = 1 → s.link.state ≠ .running →
        exec (.injectFault r) s = .next (s.afterTaking.withDone (s.taken 0x41 r) .badState .none).looked)
    ∧ ((r.w1 = 0 ∧ s.link.corruptOut = true) ∨ (r.w1 = 1 ∧ s.link.dropReturn = true) → s.link.state = .running →
        exec (.injectFault r) s = .next (s.afterTaking.withDone (s.taken 0x41 r) .busy .none).looked)
    ∧ (r.w1 = 0 → s.link.state = .running → s.link.corruptOut = false →
        exec (.injectFault r) s =
          .next (({ s.afterTaking with link.corruptOut := true } : State).withDone (s.taken 0x41 r) .ok .none).looked)
    ∧ (r.w1 = 1 → s.link.state = .running → s.link.dropReturn = false →
        exec (.injectFault r) s =
          .next (({ s.afterTaking with link.dropReturn := true } : State).withDone (s.taken 0x41 r) .ok .none).looked)

/-! ## Link Operation (Chapter 2) -/

/-- LINK CONFIGURE: the four fields are judged before the link state. In UNCONFIGURED or STOPPED they replace the configuration and
the link is STOPPED, with its frame number, stop cause, bad-return run and arms as they were; elsewhere nothing changes. -/
def Obligations.LinkConfigureJudged : Prop :=
  ∀ (s : State) (r : CommandRecord) (valid : Prop), s.Taking →
    (valid ↔ 80 ≤ r.w1.toNat ∧ r.w1.toNat ≤ 10000 ∧ (r.w2 = 0 ∨ r.w2 = 1) ∧ r.w3.toNat ≤ 255) →
    (¬ valid → exec (.linkConfigure r) s = .next (s.afterTaking.withDone (s.taken 0x01 r) .badParameter .none).looked)
    ∧ (valid → s.link.state = .waiting ∨ s.link.state = .running ∨ s.link.state = .stopping →
        exec (.linkConfigure r) s = .next (s.afterTaking.withDone (s.taken 0x01 r) .badState .none).looked)
    ∧ (valid → s.link.state = .unconfigured ∨ s.link.state = .stopped →
        exec (.linkConfigure r) s =
          .next (({ s.afterTaking with
            link.state := .stopped
            link.config := some
              { period := r.w1.toNat, mode := if r.w2 = 1 then .internal else .external, threshold := r.w3.toNat,
                idleFill := r.w4 } } : State).withDone (s.taken 0x01 r) .ok .none).looked)

/-- LINK START refused: a present trigger with a line above 7 or another edge is BAD_PARAMETER in every link state; without a bad
field the state decides, BUSY while a START is outstanding and BAD_STATE otherwise. -/
def Claims.LinkStartRefused : Prop :=
  ∀ (s : State) (r : CommandRecord) (badTrigger : Prop), s.Taking →
    (badTrigger ↔ r.w1.getLsbD 0 = true ∧ (7 < field r.w1 8 8 ∨ 1 < field r.w1 16 8)) →
    (badTrigger → exec (.linkStart r) s = .next (s.afterTaking.withDone (s.taken 0x02 r) .badParameter .none).looked)
    ∧ (¬ badTrigger → s.link.state ≠ .stopped → s.link.start.isSome = true →
        exec (.linkStart r) s = .next (s.afterTaking.withDone (s.taken 0x02 r) .busy .none).looked)
    ∧ (¬ badTrigger → s.link.state ≠ .stopped → s.link.start = none →
        exec (.linkStart r) s = .next (s.afterTaking.withDone (s.taken 0x02 r) .badState .none).looked)

/-- LINK START with a trigger, accepted: the link is WAITING with the watch set, the timeout running when it is not 0, and the
START outstanding with the reservation it was taken with; frame number, run, arms and stop cause take their start values. A
trigger report made before it no longer counts (log entry 17). -/
def Claims.LinkStartWaits : Prop :=
  ∀ (s : State) (r : CommandRecord) (line : LineId) (edge : Edge), s.Taking → s.link.state = .stopped →
    r.w1.getLsbD 0 = true → field r.w1 8 8 = line.val → field r.w1 16 8 = edgeCode edge →
    exec (.linkStart r) s =
      .next ({ s.afterTaking with
        link.state := .waiting
        link.frame := 0
        link.badRun := 0
        link.corruptOut := false
        link.dropReturn := false
        link.stopCause := none
        link.runGeneration := none
        link.start := some (s.taken 0x02 r)
        link.timeout := if r.w2.toNat % 65536 = 0 then none else some (r.w2.toNat % 65536)
        lines.watch := some { line := line, edge := edge }
        lines.reports := s.lines.reports.map fun p => { p with current := false } } : State).looked

/-- LINK START refused, and accepted with a trigger. -/
def Obligations.LinkStartJudged : Prop := Claims.LinkStartRefused ∧ Claims.LinkStartWaits

/-- LINK START without a trigger, accepted from STOPPED with the window empty: RUNNING with frame 0 started and in transmission, the
timer running, START OK as the last record, and frame 0 alone in the window. That frame 0's records precede START OK is the
model's reading (log entry 13), and so is that the look for the next record comes after them (log entry 29). -/
def Obligations.LinkStartRunsAtOnce : Prop :=
  ∀ (s : State) (r : CommandRecord) (k : LinkConfig), s.Taking → s.link.state = .stopped → r.w1.getLsbD 0 = false →
    s.link.config = some k → s.ret.window = [] → s.sched.swapArmed = false →
    ∃ (t : State) (words : List Word),
      exec (.linkStart r) s = .next t.looked
      ∧ t.host = s.host ∧ t.port = s.portWithout .commandProcessor
      ∧ t.proc = s.afterTaking.proc
      ∧ RecordsGrow { s.comp with reservations := s.comp.reservations - 1 } t.comp ∧ t.lines.watch = s.lines.watch
      ∧ t.comp.holding.getLast? = some (.commandDone (s.taken 0x02 r) .ok .none)
      ∧ t.link =
          { s.link with
            state := .running
            frame := 0
            frameTimer := true
            badRun := 0
            corruptOut := false
            dropReturn := false
            stopCause := none
            runGeneration := some s.sched.generation
            outFrame := some words
            transmitting := true
            loopDue := decide (k.mode = .internal) }
      ∧ words.length = 53 ∧ words[0]? = some 0 ∧ words[1]? = some (generationWord s.sched.generation true false)
      ∧ t.ret = { s.ret with window := [{ frame := 0, generation := s.sched.generation, deadline := 2 * k.period }] }
      ∧ t.sched = s.sched ∧ t.freePool = s.freePool

/-- LINK STOP in every link state but WAITING: OK at once where the link is not started; from RUNNING the frame timer is cancelled and
the link is STOPPING with cause HOST while the window holds an entry or a frame is in transmission; a STOP joins a stop already begun,
with the cause left; BUSY beside an outstanding STOP. -/
def Claims.LinkStopByState : Prop :=
  ∀ (s : State) (r : CommandRecord), s.Taking →
    (s.link.state = .unconfigured ∨ s.link.state = .stopped →
      exec (.linkStop r) s = .next (s.afterTaking.withDone (s.taken 0x03 r) .ok .none).looked)
    ∧ (s.link.state = .running → s.ret.window ≠ [] ∨ s.link.transmitting = true →
        exec (.linkStop r) s =
          .next ({ s.afterTaking with
            link.state := .stopping
            link.stopCause := some .host
            link.frameTimer := false
            link.stop := some (s.taken 0x03 r) } : State).looked)
    ∧ (s.link.state = .stopping → s.link.stop = none →
        exec (.linkStop r) s = .next ({ s.afterTaking with link.stop := some (s.taken 0x03 r) } : State).looked)
    ∧ (s.link.state = .stopping → s.link.stop.isSome = true →
        exec (.linkStop r) s = .next (s.afterTaking.withDone (s.taken 0x03 r) .busy .none).looked)

/-- The records of an entry to STOPPED before LINK_DOWN, in their order: START, COMMIT, STOP. -/
def stoppedRecords (s : State) (startStatus : CommandStatus) : List Record :=
  (match s.link.start with | some c => [.commandDone c startStatus .none] | none => [])
  ++ (match s.sched.swapArmed, s.sched.commit with
      | true, some c => [.commandDone c .ok (.swapped (s.sched.generation + 1) none)]
      | true, none => []
      | false, _ => [])
  ++ (match s.link.stop with | some c => [.commandDone c .ok .none] | none => [])

/-- The state with those records at the tail of the holding list, each in its reservation. -/
def stopRecorded (s : State) (startStatus : CommandStatus) : State :=
  { s with
    comp.holding := s.comp.holding ++ stoppedRecords s startStatus
    comp.reservations := s.comp.reservations - (stoppedRecords s startStatus).length }

/-- What an entry to STOPPED leaves of the state `s` that it finds: the START, COMMIT and STOP records, and behind them LINK_DOWN for
the cause RETURN_FAULT alone, dropped and counted where no place is free; no command outstanding, the markers inactive; and an armed
swap performed, the streams moved by the new active bank. -/
def StoppedEntered (s t : State) (startStatus : CommandStatus) : Prop :=
  t.host = s.host ∧ t.port = s.port ∧ t.proc = s.proc ∧ t.freePool = s.freePool ∧ t.ret = s.ret
  ∧ t.comp =
      (if s.link.stopCause = some .returnFault then
        (stopRecorded s startStatus).afterEvent (.linkDown .returnFault s.link.frame s.link.badRun)
      else stopRecorded s startStatus).comp
  ∧ t.link = { s.link with state := .stopped, timeout := none, start := none, stop := none }
  ∧ t.lines.watch = none ∧ t.lines.sense = s.lines.sense ∧ t.lines.reports = s.lines.reports
  ∧ (∀ m : MarkerId, t.lines.markers[m] = { s.lines.markers[m] with active := false })
  ∧ t.sched = (if s.sched.swapArmed then { s.scheduleSwapped with commit := none } else s.sched)
  ∧ ∀ i : StreamId,
      t.stream i = if s.sched.swapArmed then (s.stream i).moved (s.sched.pending.names i) else s.stream i

/-- LINK STOP in WAITING: STOPPED with cause HOST, the START CANCELLED, an armed swap performed, the STOP OK. -/
def Claims.LinkStopEndsWaiting : Prop :=
  ∀ (s : State) (r : CommandRecord), s.Taking → s.link.state = .waiting →
    ∃ t : State, exec (.linkStop r) s = .next t.looked
      ∧ StoppedEntered { s.afterTaking with link.stopCause := some .host, link.stop := some (s.taken 0x03 r) } t .cancelled

/-- LINK STOP in RUNNING with the window empty and no frame in transmission: STOPPED at once with cause HOST, an armed swap performed,
the STOP OK. -/
def Claims.LinkStopStopsAtOnce : Prop :=
  ∀ (s : State) (r : CommandRecord), s.Taking → s.link.state = .running → s.ret.window = [] → s.link.transmitting = false →
    ∃ t : State, exec (.linkStop r) s = .next t.looked
      ∧ StoppedEntered
          { s.afterTaking with
            link.frameTimer := false, link.stopCause := some .host, link.stop := some (s.taken 0x03 r) } t .cancelled

/-- LINK STOP in every link state. That the step of LINK STOP itself makes the passage to STOPPED is log entry 11, and that the look
for the next record comes after the records of that passage is log entry 29. -/
def Obligations.LinkStopInEveryState : Prop :=
  Claims.LinkStopByState ∧ Claims.LinkStopStopsAtOnce ∧ Claims.LinkStopEndsWaiting

/-- The timeout of a WAITING link: STOPPED, the stop cause left absent, the START TIMEOUT; nothing where no timeout runs. -/
def Claims.TimeoutEndsWaiting : Prop :=
  ∀ s : State,
    (s.host.engine = .ready → s.link.state = .waiting → s.link.timeout.isSome = true →
      ∃ t, exec .timeoutExpiry s = .next t ∧ StoppedEntered s t .timeout)
    ∧ (¬ (s.host.engine = .ready ∧ s.link.state = .waiting ∧ s.link.timeout.isSome = true) →
        exec .timeoutExpiry s = .next s)

/-- A STOPPING link passes to STOPPED when the window is empty and no frame is in transmission: at the end of the transmission
when the window is empty by then. The row ENTRY_TO_STOPPED makes the entry where it is still to be made (log entry 11). In FAULT
the end of the transmission brings STOPPED without any record; elsewhere it only ends the transmission. -/
def Claims.StoppingEndsInStopped : Prop :=
  ∀ s : State,
    (s.host.engine = .ready → s.link.state = .stopping → s.ret.window = [] → s.link.transmitting = false →
      ∃ t, exec .entryToStopped s = .next t ∧ StoppedEntered s t .cancelled)
    ∧ (s.host.engine = .ready → s.link.state = .stopping → s.ret.window = [] → s.link.transmitting = true →
        ∃ t, exec .transmissionEnd s = .next t
          ∧ StoppedEntered { s with link.transmitting := false } t .cancelled)
    ∧ (s.host.engine = .ready → s.link.state ≠ .stopping ∨ s.ret.window ≠ [] → s.link.transmitting = true →
        exec .transmissionEnd s = .next { s with link.transmitting := false }
        ∧ exec .entryToStopped s = .next s)
    ∧ (s.host.engine = .fault → s.link.state = .running ∨ s.link.state = .stopping → s.link.transmitting = true →
        exec .transmissionEnd s = .next { s with link.transmitting := false, link.state := .stopped })
    ∧ (s.link.transmitting = false → exec .transmissionEnd s = .next s)

/-- The entries to STOPPED by the timeout and from STOPPING. -/
def Obligations.EntriesToStopped : Prop := Claims.TimeoutEndsWaiting ∧ Claims.StoppingEndsInStopped

/-! ## Frame starts (Chapters 1, 2, 4, 6, 8) -/

/-- The addition that a bad return makes in the state brings the run to a non-zero threshold in RUNNING. -/
def beginsFaultStop (s : State) (threshold : Nat) : Bool :=
  decide (s.link.state = .running ∧ threshold ≠ 0 ∧ s.link.badRun < 65535 ∧ s.link.badRun + 1 = threshold)

/-- The words of the next frame are well formed: its number, its generation word, and a check word that agrees with them unless
CORRUPT_OUT was armed. -/
def NextFrameWords (s : State) (words : List Word) : Prop :=
  words.length = 53 ∧ words[0]? = some (s.link.frame + 1)
  ∧ words[1]? =
      some (generationWord s.sched.generation (decide (s.link.runGeneration = none))
        (decide (s.link.runGeneration ≠ none ∧ s.link.runGeneration ≠ some s.sched.generation)))
  ∧ (goodCheck words false = true ↔ s.link.corruptOut = false)

/-- The frame timer runs out in RUNNING with no swap to perform: the next frame starts, numbered one above the last, enters the
window and begins transmission under the bank in force; its words are well formed, and CORRUPT_OUT is then disarmed. With two entries
in the window the older resolves MISSING and leaves first, and the retiring mark follows the entry that stays. Nothing happens where
the timer does not run. -/
def Claims.NextFrameStarts : Prop :=
  (∀ s : State, ¬ (s.host.engine = .ready ∧ s.link.state = .running ∧ s.link.frameTimer = true) →
    exec .frameTimerExpiry s = .next s)
  ∧ ∀ (s : State) (k : LinkConfig), s.host.engine = .ready → s.link.state = .running → s.link.frameTimer = true →
      s.link.config = some k → s.sched.swapArmed = false →
      (s.ret.window.length ≤ 1 →
        ∃ (t : State) (words : List Word),
          exec .frameTimerExpiry s = .next t ∧ NextFrameWords s words
          ∧ t.link =
              { s.link with
                frame := s.link.frame + 1
                corruptOut := false
                runGeneration := some s.sched.generation
                outFrame := some words
                transmitting := true
                loopDue := decide (k.mode = .internal) }
          ∧ t.ret =
              { s.ret with
                window := s.ret.window ++
                  [{ frame := s.link.frame + 1, generation := s.sched.generation, deadline := 2 * k.period }] }
          ∧ t.host = s.host ∧ t.port = s.port ∧ t.proc = s.proc ∧ t.sched = s.sched ∧ t.freePool = s.freePool
          ∧ RecordsGrow s.comp t.comp ∧ t.lines.watch = s.lines.watch ∧ t.lines.reports = s.lines.reports
          ∧ ∀ l : LineId, t.lines.sense[l] = { s.lines.sense[l] with frameMark := false })
      ∧ ∀ e1 e2 : WindowEntry, s.ret.window = [e1, e2] →
          ∃ (t : State) (words : List Word),
            exec .frameTimerExpiry s = .next t ∧ NextFrameWords s words ∧ t.link.outFrame = some words
            ∧ t.link.frame = s.link.frame + 1 ∧ t.link.transmitting = true ∧ t.link.corruptOut = false
            ∧ t.ret =
                { s.ret with
                  window := [e2, { frame := s.link.frame + 1, generation := s.sched.generation, deadline := 2 * k.period }] }
            ∧ t.sched =
                { s.sched with
                  retiring := s.sched.retiring && decide (e2.generation = s.sched.generation - 1) }
            ∧ t.host = s.host ∧ t.port = s.port ∧ t.proc = s.proc ∧ t.freePool = s.freePool ∧ RecordsGrow s.comp t.comp

/-- The MISSING resolution that a frame start makes of the older of two entries, with a swap or without: the bad-return run rises by
one, with LINK_DEGRADED from 0, and at the threshold a fault stop begins, whose cause is RETURN_FAULT and which leaves the frame timer
cancelled; the frame itself is sent all the same. -/
def Claims.FrameStartCountsTheOlderMissing : Prop :=
  ∀ (s : State) (k : LinkConfig) (e1 e2 : WindowEntry) (stops : Bool), s.host.engine = .ready → s.link.state = .running →
    s.link.frameTimer = true → s.link.config = some k → s.ret.window = [e1, e2] → stops = beginsFaultStop s k.threshold →
    ∃ t, exec .frameTimerExpiry s = .next t
      ∧ t.link.badRun = min 65535 (s.link.badRun + 1)
      ∧ (s.link.badRun = 0 → Presented s t (.linkDegraded e1.frame s.ret.lastStation))
      ∧ t.link.state = (if stops then .stopping else .running)
      ∧ t.link.stopCause = (if stops then some .returnFault else s.link.stopCause)
      ∧ t.link.frameTimer = !stops ∧ t.link.frame = s.link.frame + 1 ∧ t.link.transmitting = true
      ∧ t.ret.lastStation = s.ret.lastStation

/-- The second word of an outbound frame, as the number that its fields make: the generation in bits 7 to 0, FIRST in bit 8 and
NEW_GENERATION in bit 9, and 0 above. -/
def Claims.GenerationWordBits : Prop :=
  ∀ (g : Gen) (first newGeneration : Bool),
    (generationWord g first newGeneration).toNat =
      g.toNat + 2 ^ 8 * (if first then 1 else 0) + 2 ^ 9 * (if newGeneration then 1 else 0)

/-- The frame timer's frame start, what it does with a frame that is still unanswered, and the bits of the generation word. -/
def Obligations.FrameTimerStartsNextFrame : Prop :=
  Claims.NextFrameStarts ∧ Claims.FrameStartCountsTheOlderMissing ∧ Claims.GenerationWordBits

/-- A frame carries the word and the fresh mark on an OUT slot: word 5 + k, and bit k of the fresh map. -/
def carries (words : List Word) (slot : SlotId) (w : Word) (fresh : Bool) : Prop :=
  words[4 + slot.val]? = some w ∧ validMark words slot = fresh

/-- The slot words of frame `f` follow the table of R106 under the bank and with the stream contexts given: each slot of a due
out-stream by its row (a sample, the last sample, or the fill word), the mark set for a sample alone; every other slot carries the
idle fill word. -/
def SlotsFollow (bank : Bank) (context : StreamId → Stream) (f : FrameNo) (idle : Word) (words : List Word) : Prop :=
  (∀ (p : Placement) (sh : Shape) (policy : UnderrunPolicy) (c : Stream), p ∈ bank → p.lane = .outLane → c = context p.stream →
    c.shape = some sh → sh.kind = .outStream policy → f.toNat % sh.period = sh.phase →
    (c.state = .live → sh.channels ≤ c.samples.length →
      ∀ x, c.samples[p.channel.val]? = some x → carries words p.slot x.value true)
    ∧ (c.state = .live → c.samples.length < sh.channels → policy = .repeat →
        ∀ w, c.lastSamples[p.channel.val]? = some (some w) → carries words p.slot w false)
    ∧ (c.state = .live → c.samples.length < sh.channels →
        policy = .fill ∨ c.lastSamples[p.channel.val]? = some none → carries words p.slot sh.fillWord false)
    ∧ (c.state = .faulted ∨ c.state = .quiescing → carries words p.slot sh.fillWord false))
  ∧ ∀ slot : SlotId,
      (∀ (p : Placement) (sh : Shape), p ∈ bank → p.lane = .outLane → p.slot = slot →
        (context p.stream).shape = some sh → f.toNat % sh.period ≠ sh.phase) →
      carries words slot idle false

/-- A frame start whose number is a multiple of 64 performs an armed swap before the frame is composed: the banks exchange, the
generation advances, the streams move between OPEN and LIVE by the new active bank, an out-stream made LIVE with its run cleared, and
the COMMIT completes OK with the new generation and this frame as the first record of the step. The frame carries the new generation
with NEW_GENERATION set, and its slot words follow the new active bank with the streams as moved. -/
def Obligations.RoundStartPerformsArmedSwap : Prop :=
  ∀ (s : State) (c : Command) (k : LinkConfig) (f : FrameNo), s.host.engine = .ready → s.link.state = .running →
    s.link.frameTimer = true → f = s.link.frame + 1 → f.toNat % 64 = 0 → s.sched.swapArmed = true → s.sched.commit = some c →
    s.link.config = some k → s.link.runGeneration = some s.sched.generation → s.ret.window.length ≤ 1 →
    ∃ (t : State) (words : List Word),
      exec .frameTimerExpiry s = .next t
      ∧ t.sched = { s.scheduleSwapped with commit := none }
      ∧ t.comp.holding[s.comp.holding.length]? = some (.commandDone c .ok (.swapped (s.sched.generation + 1) (some f)))
      ∧ RecordsGrow { s.comp with reservations := s.comp.reservations - 1 } t.comp
      ∧ t.host = s.host ∧ t.port = s.port ∧ t.proc = s.proc ∧ t.freePool = s.freePool
      ∧ t.link.outFrame = some words ∧ words[1]? = some (generationWord (s.sched.generation + 1) false true)
      ∧ t.ret.window.map (·.generation) = s.ret.window.map (·.generation) ++ [s.sched.generation + 1]
      ∧ (BanksInv s → StreamsInv s → SlotsFollow s.sched.pending (s.streamFor f) f k.idleFill words)
      ∧ ∀ i : StreamId,
          ((s.stream i).state = .opened → s.sched.pending.names i = true → (t.stream i).state = .live)
          ∧ ((s.stream i).state = .live → s.sched.pending.names i = true → (t.stream i).state = .live)
          ∧ ((s.stream i).state = .live → s.sched.pending.names i = false →
              t.stream i = { s.stream i with state := .opened })
          ∧ ((s.stream i).state = .faulted ∨ (s.stream i).state = .quiescing ∨ (s.stream i).state = .closed
              ∨ ((s.stream i).state = .opened ∧ s.sched.pending.names i = false) → t.stream i = s.stream i)
          ∧ ∀ sh : Shape, (s.stream i).state = .opened → s.sched.pending.names i = true → (s.stream i).shape = some sh →
              (sh.kind.lane = .inLane → t.stream i = { s.stream i with state := .live })
              ∧ (sh.kind.lane = .outLane → f.toNat % sh.period ≠ sh.phase →
                  t.stream i = { s.stream i with state := .live, runFlag := false, runCount := 0 })

/-- The slot words of every frame, where every bank satisfies its rules: a frame that the timer starts and frame 0 of a run, with the
bank in force and the streams as the swap of its frame start, if it performs one, leaves them. Each slot of a due out-stream follows
its row of the table (a sample, the last sample, or the fill word), the mark set for a sample alone; every other slot carries the idle
fill word. -/
def Obligations.SlotWordsFollowTheTable : Prop :=
  ∀ (s t : State) (c : Instr) (f : FrameNo) (k : LinkConfig) (words : List Word), BanksInv s → StreamsInv s →
    FrameStarts s c f → s.link.config = some k → exec c s = .next t → t.link.outFrame = some words →
    SlotsFollow (s.bankFor f) (s.streamFor f) f k.idleFill words

/-- A frame start, its swap apart, leaves alone the free pool, the schedule when the window holds at most one entry, and every stream
that is not a LIVE out-stream named and due in the frame, in-streams again when the window holds at most one entry. -/
def Claims.OtherStreamsKeepTheirState : Prop :=
  ∀ (s t : State) (c : Instr) (f : FrameNo) (i : StreamId), FrameStarts s c f → exec c s = .next t →
    t.freePool = s.freePool ∧ (s.ret.window.length ≤ 1 → s.swapsAt f = false → t.sched = s.sched)
    ∧ (s.ret.window.length ≤ 1 ∨ (s.stream i).isOut = true →
      (s.streamFor f i).state ≠ .live ∨ (s.bankFor f).names i = false
        ∨ (∀ sh : Shape, (s.stream i).shape = some sh → sh.kind.lane = .inLane ∨ f.toNat % sh.period ≠ sh.phase) →
      t.stream i = s.streamFor f i)

/-- A turn of an out-stream that the bank in force names as due. LIVE with C samples staged, it takes the C oldest, which become the
last samples, and ends a starvation run, presenting STREAM_RESUMED with the run's count; with fewer it underruns: nothing leaves
staging, the run counts it, and the first of a run presents STREAM_STARVED. A stream that is not LIVE is left as it stands. A list
holds at most two entries. -/
def Claims.DueStreamTakesItsTurn : Prop :=
  ∀ (s t : State) (c : Instr) (f : FrameNo) (i : StreamId) (x : Stream) (sh : Shape), StreamsInv s →
    FrameStarts s c f → exec c s = .next t → x = s.streamFor f i → x.shape = some sh → sh.kind.lane = .outLane →
    (s.bankFor f).names i = true → f.toNat % sh.period = sh.phase →
    (x.state = .live → sh.channels ≤ x.samples.length →
      t.stream i =
        { x with
          samples := x.samples.drop sh.channels
          lastSamples := (x.samples.take sh.channels).map (fun y => some y.value)
          runFlag := false
          runCount := 0
          list := (t.stream i).list
          retire := (t.stream i).retire }
      ∧ (x.runFlag = true → Presented s t (.streamResumed i f x.runCount)))
    ∧ (x.state = .live → x.samples.length < sh.channels →
        t.stream i = { x with runFlag := true, runCount := if x.runFlag then min 65535 (x.runCount + 1) else 1 }
        ∧ (x.runFlag = false → Presented s t (.streamStarved i f)))
    ∧ (x.state ≠ .live → t.stream i = x)

/-- An entry that `n` of its samples were sent from in frame `f`. -/
def sentFrom (e : Entry) (n : Nat) (f : FrameNo) : Entry :=
  if n = 0 then e else { e with done := e.done + n, firstFrame := some (e.firstFrame.getD f), lastFrame := some f }

/-- The BLOCK_DONE record of an out-block whose last sample frame `f` sent. -/
def outBlockDone (i : StreamId) (ringSize : Nat) (e : Entry) (f : FrameNo) : BlockDone where
  stream := i
  ringIndex := e.ringIndex
  cookie := e.cookie
  status := .complete
  done := e.count
  frames := some (e.firstFrame.getD f, f)
  fresh := e.fresh
  stale := e.stale
  damaged := e.damaged
  missing := e.missing
  retireIndex := (e.ringIndex + 1) % ringSize

/-- Stream `i`, which frame `f` finds as `x`, takes a good turn in the step: a LIVE out-stream, named and due, with a turn staged. -/
def TakesGoodTurn (s t : State) (c : Instr) (f : FrameNo) (i : StreamId) (x : Stream) (sh : Shape) : Prop :=
  StreamsInv s ∧ FrameStarts s c f ∧ exec c s = .next t
  ∧ x = s.streamFor f i ∧ x.shape = some sh ∧ sh.kind.lane = .outLane ∧ (s.bankFor f).names i = true
  ∧ f.toNat % sh.period = sh.phase ∧ x.state = .live ∧ 1 ≤ sh.channels ∧ sh.channels ≤ x.samples.length ∧ x.drained = false

/-- Of the samples of the next turn those at the places given, and no others, carry the block-end mark. -/
def TurnEndsAt (x : Stream) (sh : Shape) (places : List Nat) : Prop :=
  ∀ (m : Nat) (y : Sample), m < sh.channels → x.samples[m]? = some y → (y.blockEnd = true ↔ m ∈ places)

/-- The step has put the records in the holding list, right after the STREAM_RESUMED of a run that the turn ends. -/
def TurnReports (s t : State) (i : StreamId) (x : Stream) (f : FrameNo) (records : List Record) : Prop :=
  ∃ before after, t.comp.holding =
    s.comp.holding ++ before ++ (if x.runFlag then [.event (.streamResumed i f x.runCount)] else []) ++ records ++ after

/-- The block progress of a good turn. Samples without a block-end mark are all the head's. With one block-end sample among them, at
place `n` of the turn, the head is finished COMPLETE with those up to it, and the next entry takes the rest. Without REPORT the
finished head retires in the same step; with REPORT and a place free its BLOCK_DONE enters, right after the STREAM_RESUMED of a run
that the turn ends; with no place free it stays in the list, finished. -/
def Claims.GoodTurnMovesBlocks : Prop :=
  ∀ (s t : State) (c : Instr) (f : FrameNo) (i : StreamId) (x : Stream) (sh : Shape) (e : Entry) (rest : List Entry),
    TakesGoodTurn s t c f i x sh → x.list = e :: rest → e.finished = none →
    (TurnEndsAt x sh [] → (t.stream i).list = sentFrom e sh.channels f :: rest ∧ (t.stream i).retire = x.retire)
    ∧ ∀ (n : Nat) (others : List Entry), n < sh.channels → TurnEndsAt x sh [n] →
        (∀ e2 ∈ rest, e2.finished = none) → 1 ≤ e.count →
        others = (match rest with | [] => [] | e2 :: l => sentFrom e2 (sh.channels - n - 1) f :: l) →
        (e.report = false →
          (t.stream i).list = others ∧ (t.stream i).retire = (x.retire + 1) % sh.ringSize)
        ∧ (e.report = true → t.placesInUse < 32 →
          (t.stream i).list = others ∧ (t.stream i).retire = (x.retire + 1) % sh.ringSize
          ∧ TurnReports s t i x f [.blockDone (outBlockDone i sh.ringSize e f)])
        ∧ (e.report = true → 32 ≤ s.placesInUse →
          (t.stream i).list = { sentFrom e (n + 1) f with finished := some .complete } :: others
          ∧ (t.stream i).retire = x.retire)

/-- A good turn with two block-end samples, at places `n` and `m`, finishes both entries COMPLETE. They retire head first: both; or
the head alone, where the second must report and finds no place; or neither, where the head must report and finds none. With a place
free after the step both have retired, their BLOCK_DONE records side by side; with none before it, none enters. -/
def Claims.GoodTurnEndsTwoBlocks : Prop :=
  ∀ (s t : State) (c : Instr) (f : FrameNo) (i : StreamId) (x : Stream) (sh : Shape) (e1 e2 done1 done2 : Entry) (n m : Nat)
    (first second : List Record),
    TakesGoodTurn s t c f i x sh → x.list = [e1, e2] → e1.finished = none → e2.finished = none → 1 ≤ e1.count → 1 ≤ e2.count →
    n < m → m < sh.channels → TurnEndsAt x sh [n, m] →
    done1 = { sentFrom e1 (n + 1) f with finished := some .complete } →
    done2 = { sentFrom e2 (m - n) f with finished := some .complete } →
    first = (if e1.report then [.blockDone (outBlockDone i sh.ringSize e1 f)] else []) →
    second = (if e2.report then [.blockDone (outBlockDone i sh.ringSize e2 f)] else []) →
    (((t.stream i).list = [] ∧ (t.stream i).retire = (x.retire + 2) % sh.ringSize ∧ (∀ r ∈ first ++ second, r ∈ t.comp.holding))
      ∨ (e2.report = true ∧ 32 ≤ t.placesInUse ∧ (t.stream i).list = [done2]
        ∧ (t.stream i).retire = (x.retire + 1) % sh.ringSize ∧ (∀ r ∈ first, r ∈ t.comp.holding))
      ∨ (e1.report = true ∧ 32 ≤ t.placesInUse ∧ (t.stream i).list = [done1, done2] ∧ (t.stream i).retire = x.retire))
    ∧ (t.placesInUse < 32 → TurnReports s t i x f (first ++ second))
    ∧ (32 ≤ s.placesInUse →
        (e1.report = true → (t.stream i).list = [done1, done2])
        ∧ (e1.report = false → e2.report = true → (t.stream i).list = [done2]))

/-- A good turn whose head is finished and waits for a place while none is free: the samples are the second entry's, which is finished
COMPLETE where its block-end sample, at place `n`, is among them and then waits behind the head. Neither retires. -/
def Claims.GoodTurnBehindWaitingHead : Prop :=
  ∀ (s t : State) (c : Instr) (f : FrameNo) (i : StreamId) (x : Stream) (sh : Shape) (e1 e2 : Entry) (a : BlockStatus),
    TakesGoodTurn s t c f i x sh → x.list = [e1, e2] → e1.finished = some a → (e1.report = true ∨ a ≠ .complete) →
    e2.finished = none → 32 ≤ s.placesInUse →
    (t.stream i).retire = x.retire
    ∧ (TurnEndsAt x sh [] → (t.stream i).list = [e1, sentFrom e2 sh.channels f])
    ∧ ∀ n, n < sh.channels → TurnEndsAt x sh [n] →
        (t.stream i).list = [e1, { sentFrom e2 (n + 1) f with finished := some .complete }]

/-- What a frame start does to the streams: the turns of those that are due, their blocks, and nothing to the others. -/
def Obligations.OutStreamTurns : Prop :=
  Claims.DueStreamTakesItsTurn ∧ Claims.GoodTurnMovesBlocks ∧ Claims.GoodTurnEndsTwoBlocks ∧ Claims.GoodTurnBehindWaitingHead
  ∧ Claims.OtherStreamsKeepTheirState

/-- The markers at a frame start: a bound marker is active exactly when its stream is LIVE, named by the bank in force and due in the
frame its advance ahead; a line without a binding is inactive. -/
def Claims.MarkersAtFrameStarts : Prop :=
  ∀ (s t : State) (c : Instr) (f : FrameNo) (m : MarkerId), FrameStarts s c f → exec c s = .next t →
    t.lines.markers[m].binding = s.lines.markers[m].binding
    ∧ (s.lines.markers[m].binding = none → t.lines.markers[m].active = false)
    ∧ ∀ (b : Binding) (sh : Shape), s.lines.markers[m].binding = some b → (s.stream b.stream).shape = some sh →
        (t.lines.markers[m].active = true ↔
          (s.streamFor f b.stream).state = .live ∧ (s.bankFor f).names b.stream = true
          ∧ (f + BitVec.ofNat 32 b.advance).toNat % sh.period = sh.phase)

/-- The pins. The OUT lane carries the words of the frame in transmission in EXTERNAL loop mode, from the frame start to the end of
the transmission, and is idle between frames, in INTERNAL loop mode and after a reset; a marker pin is high while its marker is
active, and the interrupt pin is low while the interrupt line is asserted; a hard reset leaves the markers low and the interrupt pin
released. -/
def Claims.PinLevels : Prop :=
  (∀ (s : State) (k : LinkConfig), s.link.config = some k →
    (s.link.transmitting = true → k.mode = .external → s.outLaneWords = s.link.outFrame)
    ∧ (s.link.transmitting = false ∨ k.mode = .internal → s.outLaneWords = none))
  ∧ (∀ (s t : State) (c : Instr) (f : FrameNo) (k : LinkConfig), FrameStarts s c f → s.link.config = some k →
      exec c s = .next t →
      (k.mode = .external → ∃ words, t.outLaneWords = some words ∧ words.length = 53 ∧ words[0]? = some f)
      ∧ (k.mode = .internal → t.outLaneWords = none))
  ∧ (∀ s : State, ∃ t, exec .transmissionEnd s = .next t ∧ t.outLaneWords = none)
  ∧ (∀ s : State, s.host.resetHeld = false → s.host.engine ≠ .resetting →
      ∃ t, exec .softReset s = .next t ∧ t.outLaneWords = none ∧ t.interruptPinLow = false
        ∧ ∀ m : MarkerId, t.markerPinHigh m = false)
  ∧ (∀ (s : State) (source : ResetSource) (levels : BitVec 8),
      ∃ t, exec (.hardReset source levels) s = .next t ∧ t.outLaneWords = none ∧ t.interruptPinLow = false
        ∧ ∀ m : MarkerId, t.markerPinHigh m = false)
  ∧ ∀ s : State,
      (∀ m : MarkerId, s.markerPinHigh m = true ↔ s.lines.markers[m].active = true)
      ∧ (s.interruptPinLow = true ↔ s.interruptLine = true)

/-- The markers at frame starts, and the levels of the pins. -/
def Obligations.MarkersFollowTheirStreams : Prop := Claims.MarkersAtFrameStarts ∧ Claims.PinLevels

/-! ## Returns (Chapter 1) -/

/-- What the Return Unit disregards, and DROP_RETURN: out of READY, or with the link neither RUNNING nor STOPPING, no arrival and no
deadline does anything; the IN lane is disregarded in INTERNAL mode; an armed DROP_RETURN discards one arrival, from the IN lane or
looped, and is disarmed. -/
def Obligations.ReturnsDisregarded : Prop :=
  ∀ (s : State) (words : List Word) (ragged : Bool),
    (s.host.engine ≠ .ready ∨ (s.link.state ≠ .running ∧ s.link.state ≠ .stopping) →
      exec (.returnArrival words ragged) s = .next s ∧ exec .loopedReturn s = .next s ∧ exec .deadlineExpiry s = .next s)
    ∧ ∀ k : LinkConfig, s.link.config = some k →
        (k.mode = .internal → exec (.returnArrival words ragged) s = .next s)
        ∧ (k.mode = .external → exec .loopedReturn s = .next s)
        ∧ (s.host.engine = .ready → s.link.state = .running ∨ s.link.state = .stopping → s.link.dropReturn = true →
            (k.mode = .external →
              exec (.returnArrival words ragged) s = .next { s with link.dropReturn := false })
            ∧ (k.mode = .internal → s.link.loopDue = true → s.link.transmitting = false → s.link.outFrame = some words →
              exec .loopedReturn s = .next { s with link.dropReturn := false, link.loopDue := false }))

/-- The engine takes an arrival from the stations: READY, RUNNING or STOPPING, EXTERNAL mode, DROP_RETURN not armed. -/
def TakesReturn (s : State) : Prop :=
  s.host.engine = .ready ∧ (s.link.state = .running ∨ s.link.state = .stopping) ∧ s.link.dropReturn = false
  ∧ ∃ k, s.link.config = some k ∧ k.mode = .external

/-- The words pass the check of R6. -/
def PassesCheck (words : List Word) (ragged : Bool) : Prop :=
  words.length = 53 ∧ ragged = false ∧ words[52]? = some (checkWord (words.take 52))

/-- What a return of the words that answers no entry of the window comes to: it resolves nothing and counts as one bad return, a good
one (a stray) with its station word kept; LINK_DEGRADED is presented when the run passes from 0 to 1; and the addition that reaches a
non-zero threshold in RUNNING begins a fault stop, which with the window empty and no frame in transmission passes to STOPPED at once. -/
def UnmatchedReturnGives (s : State) (words : List Word) (ragged : Bool) (result : Result) : Prop :=
  ∀ (k : LinkConfig) (n : FrameNo) (station : Word) (stops : Bool), s.link.config = some k →
    n = words.headD s.link.frame → (words = [] ∨ ∀ e ∈ s.ret.window, e.frame ≠ n) →
    (PassesCheck words ragged → words[1]? = some station) → (¬ PassesCheck words ragged → station = s.ret.lastStation) →
    stops = beginsFaultStop s k.threshold →
    ∀ counted told : State,
      counted =
        { s with
          ret.lastStation := station
          link.badRun := min 65535 (s.link.badRun + 1)
          link.state := if stops then .stopping else s.link.state
          link.stopCause := if stops then some .returnFault else s.link.stopCause
          link.frameTimer := if stops then false else s.link.frameTimer } →
      told = (if s.link.badRun = 0 then counted.afterEvent (.linkDegraded n station) else counted) →
      (told.link.state = .running ∨ s.ret.window ≠ [] ∨ s.link.transmitting = true → result = .next told)
      ∧ (told.link.state = .stopping → s.ret.window = [] → s.link.transmitting = false →
        ∃ t, result = .next t ∧ StoppedEntered told t .cancelled)

/-- A return that answers no entry of the window, good (a stray, whose station word is kept) or damaged (whose station word is
not): it resolves nothing and counts as one bad return; LINK_DEGRADED is presented when the run passes from 0 to 1; and the
addition that reaches a non-zero threshold in RUNNING begins a fault stop, which with the window empty and no frame in transmission
passes to STOPPED at once, in the same step (log entry 11). -/
def Obligations.UnmatchedReturnCounts : Prop :=
  ∀ (s : State) (words : List Word) (ragged : Bool), TakesReturn s →
    UnmatchedReturnGives s words ragged (exec (.returnArrival words ragged) s)

/-- The resolutions of a step have left the window with `rest`, and begun a fault stop or not. The link has the cause RETURN_FAULT and
its frame timer cancelled where they do; the run is what the statement gives; the retiring mark follows the entries that are left;
out-streams stand as they stood, and of an in-stream its turn and overrun run alone have moved. -/
def WindowResolved (s u : State) (stops : Bool) (rest : List WindowEntry) (badRun : Nat) : Prop :=
  u.ret.window = rest
  ∧ u.link =
      { s.link with
        badRun := badRun
        state := if stops then .stopping else s.link.state
        stopCause := if stops then some .returnFault else s.link.stopCause
        frameTimer := if stops then false else s.link.frameTimer }
  ∧ u.sched =
      { s.sched with
        retiring := s.sched.retiring && rest.any fun e => decide (e.generation = s.sched.generation - 1) }
  ∧ u.host = s.host ∧ u.port = s.port ∧ u.proc = s.proc ∧ u.freePool = s.freePool ∧ u.lines = s.lines
  ∧ RecordsGrow s.comp u.comp
  ∧ ∀ i : StreamId,
      { u.stream i with elements := [], runFlag := false, runCount := 0 } =
        { s.stream i with elements := [], runFlag := false, runCount := 0 }
      ∧ ((∀ sh : Shape, (s.stream i).shape = some sh → sh.kind.lane = .outLane) → u.stream i = s.stream i)

/-- What the step leaves whose resolutions those are: the state they leave; but where the link is then STOPPING, with the window empty
and no frame in transmission, the entry to STOPPED follows in the same step, with the STOP, the armed swap, the markers and LINK_DOWN
as at every such entry. -/
def LinkResolved (s t : State) (stops : Bool) (rest : List WindowEntry) : Prop :=
  ∃ u : State, WindowResolved s u stops rest t.link.badRun
    ∧ (u.link.state = .stopping → rest = [] → s.link.transmitting = false → StoppedEntered u t .cancelled)
    ∧ (¬ (u.link.state = .stopping ∧ rest = [] ∧ s.link.transmitting = false) → t = u)

/-- What a good return that answers an entry of the window comes to: its station word is kept, each older entry leaves first and counts
as a bad return, newer entries stay, and the run returns to 0, with LINK_RESTORED and the run's count when it was above 0. -/
def GoodReturnGives (s : State) (words : List Word) (result : Result) : Prop :=
  ∀ (e e' : WindowEntry) (k : LinkConfig) (station : Word), s.link.config = some k → PassesCheck words false →
    words[0]? = some e.frame → words[1]? = some station → e'.frame ≠ e.frame →
    (∀ rest, (s.ret.window = [e] ∧ rest = []) ∨ (s.ret.window = [e, e'] ∧ rest = [e']) →
      ∃ t, result = .next t ∧ LinkResolved s t false rest ∧ t.ret.lastStation = station
        ∧ t.link.badRun = 0 ∧ (0 < s.link.badRun → Presented s t (.linkRestored e.frame s.link.badRun)))
    ∧ (s.ret.window = [e', e] →
        ∃ t, result = .next t ∧ LinkResolved s t (beginsFaultStop s k.threshold) []
          ∧ t.ret.lastStation = station ∧ t.link.badRun = 0
          ∧ (s.link.badRun = 0 → Presented s t (.linkDegraded e'.frame station))
          ∧ Presented s t (.linkRestored e.frame (min 65535 (s.link.badRun + 1))))

/-- What the bad resolution of the oldest entry alone comes to: it leaves, the last station word stays, and the bad-return run rises by
one, with LINK_DEGRADED from 0 and a fault stop at the threshold. -/
def OldestResolvesBad (s : State) (e : WindowEntry) (rest : List WindowEntry) (k : LinkConfig) (result : Result) : Prop :=
  ∃ t, result = .next t ∧ LinkResolved s t (beginsFaultStop s k.threshold) rest
    ∧ t.ret.lastStation = s.ret.lastStation ∧ t.link.badRun = min 65535 (s.link.badRun + 1)
    ∧ (s.link.badRun = 0 → Presented s t (.linkDegraded e.frame s.ret.lastStation))

/-- What a damaged return for the newer of two entries comes to: the older leaves first, and each counts as one bad return. -/
def DamagedReturnSettlesOlder (s : State) (words : List Word) (ragged : Bool) (result : Result) : Prop :=
  ∀ (e e' : WindowEntry) (k : LinkConfig) (stops : Bool), s.link.config = some k → ¬ PassesCheck words ragged →
    words.head? = some e.frame → e'.frame ≠ e.frame → s.ret.window = [e', e] →
    (stops = true ↔ s.link.state = .running ∧ k.threshold ≠ 0
      ∧ ((s.link.badRun < 65535 ∧ s.link.badRun + 1 = k.threshold)
        ∨ (s.link.badRun + 1 < 65535 ∧ s.link.badRun + 2 = k.threshold))) →
    ∃ t, result = .next t ∧ LinkResolved s t stops []
      ∧ t.ret.lastStation = s.ret.lastStation ∧ t.link.badRun = min 65535 (s.link.badRun + 2)
      ∧ (s.link.badRun = 0 → Presented s t (.linkDegraded e'.frame s.ret.lastStation))

/-- A good return that answers an entry of the window: its station word is kept, each older entry leaves first and counts as a bad
return, newer entries stay, and the run returns to 0, with LINK_RESTORED and the run's count when it was above 0. -/
def Claims.GoodReturnResolves : Prop :=
  ∀ (s : State) (words : List Word), TakesReturn s → GoodReturnGives s words (exec (.returnArrival words false) s)

/-- A return with a failed check that answers the oldest entry, or a deadline that runs out: the oldest entry leaves, the last station
word stays, and the bad-return run rises by one, with LINK_DEGRADED from 0 and a fault stop at the threshold; with an empty window a
deadline does nothing. -/
def Claims.BadResolutionCounts : Prop :=
  (∀ (s : State) (words : List Word) (ragged : Bool) (e : WindowEntry) (rest : List WindowEntry) (k : LinkConfig) (c : Instr),
    s.link.config = some k → s.ret.window = e :: rest →
    ((c = .returnArrival words ragged ∧ TakesReturn s ∧ ¬ PassesCheck words ragged ∧ words.head? = some e.frame)
      ∨ (c = .deadlineExpiry ∧ s.host.engine = .ready ∧ (s.link.state = .running ∨ s.link.state = .stopping))) →
    OldestResolvesBad s e rest k (exec c s))
  ∧ ∀ s : State, s.ret.window = [] → exec .deadlineExpiry s = .next s

/-- A damaged return for the newer of two entries: the older leaves first and each counts as one bad return. -/
def Claims.DamagedReturnSettlesTheOlder : Prop :=
  ∀ (s : State) (words : List Word) (ragged : Bool), TakesReturn s →
    DamagedReturnSettlesOlder s words ragged (exec (.returnArrival words ragged) s)

/-- The resolutions of window entries, good and bad. The one that empties the window of a STOPPING link with no frame in transmission
brings STOPPED in its own step (log entry 11): an outstanding STOP completes OK, an armed swap is performed and its COMMIT completes,
the markers go inactive, and a fault stop posts LINK_DOWN. -/
def Obligations.ReturnsResolveTheWindow : Prop :=
  Claims.GoodReturnResolves ∧ Claims.BadResolutionCounts ∧ Claims.DamagedReturnSettlesTheOlder

/-- In INTERNAL loop mode the looped return of the last frame is made, its words those that the frame carried: the link RUNNING or
STOPPING in READY, the transmission ended, the return still due and DROP_RETURN not armed. -/
def MakesLoopedReturn (s : State) (words : List Word) : Prop :=
  s.host.engine = .ready ∧ (s.link.state = .running ∨ s.link.state = .stopping) ∧ s.link.dropReturn = false
  ∧ s.link.loopDue = true ∧ s.link.transmitting = false ∧ s.link.outFrame = some words
  ∧ ∃ k, s.link.config = some k ∧ k.mode = .internal

/-- INTERNAL loop mode: after the transmission the last frame's own words are an arrival, made once, and taken as a return from the
stations is. It resolves its frame: GOOD, with the generation word kept as station word, where its check word agrees, and DAMAGED where
it was inverted; an older entry of the window leaves first, MISSING, a newer one stays. The run, LINK_DEGRADED, LINK_RESTORED, a fault
stop and the passage to STOPPED (log entry 11) are those of every return. One whose frame has left the window counts as a bad return. -/
def Obligations.LoopedReturnResolves : Prop :=
  ∀ (s made : State) (words : List Word), MakesLoopedReturn s words → made = { s with link.loopDue := false } →
    GoodReturnGives made words (exec .loopedReturn s)
    ∧ (∀ (e : WindowEntry) (rest : List WindowEntry) (k : LinkConfig), made.link.config = some k → ¬ PassesCheck words false →
        words.head? = some e.frame → made.ret.window = e :: rest → OldestResolvesBad made e rest k (exec .loopedReturn s))
    ∧ DamagedReturnSettlesOlder made words false (exec .loopedReturn s)
    ∧ UnmatchedReturnGives made words false (exec .loopedReturn s)

/-! ## In-stream turns (Chapter 7) -/

/-- The condition and value of an element of a return that resolves its frame: FRESH or STALE by the slot's valid mark with the
slot word under a good check; DAMAGED otherwise, with the slot word in TAGGED mode and the fill word in PLAIN mode. -/
def returnedElement (sh : Shape) (mode : TagMode) (words : List Word) (good : Prop) [Decidable good] (f : FrameNo)
    (p : Placement) : Element where
  value := if good ∨ mode = .tagged then words.getD (4 + p.slot.val) 0 else sh.fillWord
  channel := p.channel.val
  condition := if good then (if validMark words p.slot then .fresh else .stale) else .damaged
  frame := f

/-- A return of the words comes: from the stations in EXTERNAL loop mode, or looped in INTERNAL loop mode. -/
def ReturnComes (s : State) (c : Instr) (words : List Word) : Prop :=
  (c = .returnArrival words false ∧ TakesReturn s) ∨ (c = .loopedReturn ∧ MakesLoopedReturn s words)

/-- The stream is an in-stream of this shape and mode, due in the frame of the entry, and the bank of the entry's generation places
each of its channels on an IN slot. -/
def HasInTurn (s : State) (i : StreamId) (sh : Shape) (mode : TagMode) (e : WindowEntry) : Prop :=
  (s.stream i).shape = some sh ∧ sh.kind = .inStream mode ∧ 1 ≤ sh.channels ∧ e.frame.toNat % sh.period = sh.phase
  ∧ ∀ c : Nat, c < sh.channels → ∃ p ∈ s.bankOf e.generation, p.lane = .inLane ∧ p.stream = i ∧ p.channel.val = c

/-- The elements of a turn are those of a return of the words, one per channel in channel order. -/
def IsReturnedTurn (s : State) (i : StreamId) (sh : Shape) (mode : TagMode) (e : WindowEntry) (words : List Word) (good : Prop)
    [Decidable good] (turn : List Element) : Prop :=
  turn.length = sh.channels
  ∧ ∀ p ∈ s.bankOf e.generation, p.stream = i →
      turn[p.channel.val]? = some (returnedElement sh mode words good e.frame p)

/-- The elements of a turn of a frame that resolves MISSING. -/
def missingTurn (sh : Shape) (f : FrameNo) : List Element :=
  (List.range sh.channels).map fun c => { value := sh.fillWord, channel := c, condition := .missing, frame := f }

/-- A return of 53 words, from the stations or looped, that answers the oldest entry of the window gives each OPEN or LIVE in-stream
due in the frame one turn: one element per channel, in channel order, when the turn fits in staging, which ends an overrun run with
STREAM_RECOVERED; otherwise the turn is lost and counted in the run, whose first presents STREAM_OVERRUN. A FAULTED or QUIESCING
stream is left as it stands. The bank is that of the frame's generation. -/
def Claims.ReturnGivesInStreamTurn : Prop :=
  ∀ (s : State) (a : Instr) (words : List Word) (good : Prop) [Decidable good] (e : WindowEntry) (rest : List WindowEntry)
    (i : StreamId) (sh : Shape) (mode : TagMode),
    BanksInv s → ReturnComes s a words → words.length = 53 → (good ↔ words[52]? = some (checkWord (words.take 52))) →
    s.ret.window = e :: rest → words[0]? = some e.frame → HasInTurn s i sh mode e →
    ∃ t, exec a s = .next t
      ∧ ((s.stream i).state = .opened ∨ (s.stream i).state = .live →
          (s.stream i).stagedWords + sh.kind.wordsPerElement * sh.channels ≤ sh.depth →
          ∃ turn : List Element, (t.stream i).elements = (s.stream i).elements ++ turn
            ∧ IsReturnedTurn s i sh mode e words good turn
            ∧ (t.stream i).runFlag = false ∧ (t.stream i).runCount = 0
            ∧ ((s.stream i).runFlag = true → Presented s t (.streamRecovered i e.frame (s.stream i).runCount)))
      ∧ ((s.stream i).state = .opened ∨ (s.stream i).state = .live →
          sh.depth < (s.stream i).stagedWords + sh.kind.wordsPerElement * sh.channels →
          (t.stream i).elements = (s.stream i).elements ∧ (t.stream i).runFlag = true
          ∧ (t.stream i).runCount = (if (s.stream i).runFlag then min 65535 ((s.stream i).runCount + 1) else 1)
          ∧ ((s.stream i).runFlag = false → Presented s t (.streamOverrun i e.frame)))
      ∧ ((s.stream i).state = .faulted ∨ (s.stream i).state = .quiescing → t.stream i = s.stream i)

/-- A return of 53 words for the newer of two entries gives an OPEN or LIVE in-stream that is due in both frames two turns: the
older frame's MISSING elements first, then the return's own. Both, the first alone, or neither fits in staging, and the overrun run
counts the turns that are lost. One that is due in the newer frame alone has that turn alone. -/
def Claims.ReturnSettlesTheOlderTurnFirst : Prop :=
  ∀ (s : State) (a : Instr) (words : List Word) (good : Prop) [Decidable good] (e' e : WindowEntry) (i : StreamId) (sh : Shape)
    (mode : TagMode) (size : Nat),
    BanksInv s → ReturnComes s a words → words.length = 53 → (good ↔ words[52]? = some (checkWord (words.take 52))) →
    s.ret.window = [e', e] → words[0]? = some e.frame → e'.frame ≠ e.frame → HasInTurn s i sh mode e →
    ((s.stream i).state = .opened ∨ (s.stream i).state = .live) → size = sh.kind.wordsPerElement * sh.channels →
    ∃ t, exec a s = .next t
      ∧ (HasInTurn s i sh mode e' →
          ((s.stream i).stagedWords + 2 * size ≤ sh.depth →
            ∃ turn, (t.stream i).elements = (s.stream i).elements ++ missingTurn sh e'.frame ++ turn
              ∧ IsReturnedTurn s i sh mode e words good turn
              ∧ (t.stream i).runFlag = false ∧ (t.stream i).runCount = 0
              ∧ ((s.stream i).runFlag = true → Presented s t (.streamRecovered i e'.frame (s.stream i).runCount)))
          ∧ ((s.stream i).stagedWords + size ≤ sh.depth → sh.depth < (s.stream i).stagedWords + 2 * size →
            (t.stream i).elements = (s.stream i).elements ++ missingTurn sh e'.frame
            ∧ (t.stream i).runFlag = true ∧ (t.stream i).runCount = 1 ∧ Presented s t (.streamOverrun i e.frame)
            ∧ ((s.stream i).runFlag = true → Presented s t (.streamRecovered i e'.frame (s.stream i).runCount)))
          ∧ (sh.depth < (s.stream i).stagedWords + size →
            (t.stream i).elements = (s.stream i).elements ∧ (t.stream i).runFlag = true
            ∧ (t.stream i).runCount = (if (s.stream i).runFlag then min 65535 ((s.stream i).runCount + 2) else 2)
            ∧ ((s.stream i).runFlag = false → Presented s t (.streamOverrun i e'.frame))))
      ∧ (e'.frame.toNat % sh.period ≠ sh.phase →
          ((s.stream i).stagedWords + size ≤ sh.depth →
            ∃ turn, (t.stream i).elements = (s.stream i).elements ++ turn ∧ IsReturnedTurn s i sh mode e words good turn)
          ∧ (sh.depth < (s.stream i).stagedWords + size → (t.stream i).elements = (s.stream i).elements))

/-- The turn of MISSING elements that stream `i` has of frame `f` in the step: OPEN or LIVE, it is staged where it fits, which ends an
overrun run, and lost and counted where it does not; a FAULTED or QUIESCING stream is left as it stands. -/
def MissingTurnTaken (s t : State) (i : StreamId) (sh : Shape) (f : FrameNo) : Prop :=
  ((s.stream i).state = .opened ∨ (s.stream i).state = .live →
    (s.stream i).stagedWords + sh.kind.wordsPerElement * sh.channels ≤ sh.depth →
    (t.stream i).elements = (s.stream i).elements ++ missingTurn sh f
    ∧ (t.stream i).runFlag = false ∧ (t.stream i).runCount = 0
    ∧ ((s.stream i).runFlag = true → Presented s t (.streamRecovered i f (s.stream i).runCount)))
  ∧ ((s.stream i).state = .opened ∨ (s.stream i).state = .live →
    sh.depth < (s.stream i).stagedWords + sh.kind.wordsPerElement * sh.channels →
    (t.stream i).elements = (s.stream i).elements ∧ (t.stream i).runFlag = true
    ∧ (t.stream i).runCount = (if (s.stream i).runFlag then min 65535 ((s.stream i).runCount + 1) else 1)
    ∧ ((s.stream i).runFlag = false → Presented s t (.streamOverrun i f)))
  ∧ ((s.stream i).state = .faulted ∨ (s.stream i).state = .quiescing → t.stream i = s.stream i)

/-- A frame that resolves MISSING at its deadline gives each in-stream due in it a turn of MISSING elements. -/
def Claims.MissingFrameGivesInStreamTurn : Prop :=
  ∀ (s : State) (e : WindowEntry) (rest : List WindowEntry) (i : StreamId) (sh : Shape) (mode : TagMode),
    s.host.engine = .ready → s.link.state = .running ∨ s.link.state = .stopping → s.ret.window = e :: rest →
    HasInTurn s i sh mode e → ∃ t, exec .deadlineExpiry s = .next t ∧ MissingTurnTaken s t i sh e.frame

/-- The older of two frames that a frame start finds unanswered resolves MISSING and gives each in-stream due in it such a turn, under
the bank of its generation, also where that frame start performs a swap. An in-stream that is not due in it is left as the swap leaves
it. -/
def Claims.FrameStartGivesMissingTurn : Prop :=
  ∀ (s : State) (e1 e2 : WindowEntry) (i : StreamId) (sh : Shape) (mode : TagMode), s.host.engine = .ready →
    s.link.state = .running → s.link.frameTimer = true → s.ret.window = [e1, e2] →
    (s.swapsAt (s.link.frame + 1) = true → e1.generation = s.sched.generation) →
    (s.stream i).shape = some sh → sh.kind = .inStream mode →
    ∃ t, exec .frameTimerExpiry s = .next t
      ∧ (HasInTurn s i sh mode e1 → MissingTurnTaken s t i sh e1.frame)
      ∧ (e1.frame.toNat % sh.period ≠ sh.phase ∨ (s.bankOf e1.generation).names i = false →
          t.stream i = s.streamFor (s.link.frame + 1) i)

/-- The turns that a resolution gives the in-streams. -/
def Obligations.ResolutionsGiveInStreamTurns : Prop :=
  Claims.ReturnGivesInStreamTurn ∧ Claims.ReturnSettlesTheOlderTurnFirst ∧ Claims.MissingFrameGivesInStreamTurn
  ∧ Claims.FrameStartGivesMissingTurn

/-! ## Streams (Chapter 3) -/

/-- The fields of an OPEN STREAM record that carries the shape given and no bad field, with the marker given. -/
def OpenFields (r : CommandRecord) (i : StreamId) (sh : Shape) (marker : Option (MarkerId × Nat)) : Prop :=
  field r.w1 0 8 = i.val ∧ sh.legal
  ∧ (field r.w1 8 8, field r.w2 8 8) = sh.kind.codes ∧ field r.w1 16 8 = sh.channels ∧ field r.w1 24 8 = sh.period
  ∧ field r.w2 0 8 = sh.phase ∧ field r.w2 16 8 = sh.depth ∧ r.w4 = sh.fillWord ∧ address r.w5 r.w6 = sh.ringBase
  ∧ r.w7.toNat = sh.ringSize
  ∧ (match marker with
      | none => r.w3.getLsbD 0 = false
      | some (m, a) => r.w3.getLsbD 0 = true ∧ field r.w3 8 8 = m.val ∧ field r.w3 16 8 = a ∧ a ≤ 3)

/-- OPEN STREAM of a record with a bad field is BAD_PARAMETER; otherwise it is judged in the order: not CLOSED, marker line bound,
pool too small; and an accepted one sets the context, takes the depth from the pool and binds the marker, in one step. -/
def Obligations.OpenStreamJudged : Prop :=
  ∀ (s : State) (r : CommandRecord), s.Taking →
    ((∀ i sh m, ¬ OpenFields r i sh m) →
      exec (.openStream r) s = .next (s.afterTaking.withDone (s.taken 0x10 r) .badParameter .none).looked)
    ∧ ∀ (i : StreamId) (sh : Shape) (marker : Option (MarkerId × Nat)) (bound : Prop), OpenFields r i sh marker →
        (bound ↔ ∃ m a, marker = some (m, a) ∧ s.lines.markers[m].binding.isSome = true) →
        ((s.stream i).state ≠ .closed ∨ bound →
          exec (.openStream r) s = .next (s.afterTaking.withDone (s.taken 0x10 r) .badState .none).looked)
        ∧ ((s.stream i).state = .closed → ¬ bound → s.freePool < sh.depth →
          exec (.openStream r) s = .next (s.afterTaking.withDone (s.taken 0x10 r) .noStaging (.freePool s.freePool)).looked)
        ∧ ((s.stream i).state = .closed → ¬ bound → sh.depth ≤ s.freePool →
          exec (.openStream r) s =
            .next (({ s.afterTaking with
              freePool := s.freePool - sh.depth
              streams := s.streams.set i
                { state := .opened, shape := some sh, samples := [], elements := [], producer := 0, fetch := 0, retire := 0,
                  list := [], descriptorInFlight := false, cursor := none, dataInFlight := none,
                  lastSamples := if sh.kind.lane = .outLane then List.replicate sh.channels none else [],
                  runFlag := false, runCount := 0, faultCause := none, pendingOperation := none, drained := false }
              lines.markers :=
                match marker with
                | none => s.lines.markers
                | some (m, a) =>
                  s.lines.markers.set m { s.lines.markers[m] with binding := some { stream := i, advance := a } } } :
              State).withDone (s.taken 0x10 r) .ok (.freePool (s.freePool - sh.depth))).looked)

/-- CLOSE STREAM and RESTART STREAM as taken: their refusals in order, and the entry to QUIESCING with the command held. -/
def Obligations.CloseAndRestartTaken : Prop :=
  ∀ (s : State) (r : CommandRecord), s.Taking →
    (31 < field r.w1 0 8 →
      exec (.closeStream r) s = .next (s.afterTaking.withDone (s.taken 0x11 r) .badParameter .none).looked
      ∧ exec (.restartStream r) s = .next (s.afterTaking.withDone (s.taken 0x12 r) .badParameter .none).looked)
    ∧ (1023 < r.w2.toNat →
        exec (.restartStream r) s = .next (s.afterTaking.withDone (s.taken 0x12 r) .badParameter .none).looked)
    ∧ ∀ i : StreamId, field r.w1 0 8 = i.val →
        ((s.stream i).state = .closed →
          exec (.closeStream r) s = .next (s.afterTaking.withDone (s.taken 0x11 r) .badState .none).looked
          ∧ (r.w2.toNat ≤ 1023 →
            exec (.restartStream r) s = .next (s.afterTaking.withDone (s.taken 0x12 r) .badState .none).looked))
        ∧ ((s.stream i).state ≠ .closed → s.sched.active.names i = true ∨ s.sched.pending.names i = true →
            exec (.closeStream r) s = .next (s.afterTaking.withDone (s.taken 0x11 r) .inSchedule .none).looked)
        ∧ ((s.stream i).state ≠ .closed → s.sched.active.names i = false → s.sched.pending.names i = false →
            exec (.closeStream r) s =
              .next { s.afterTaking with
                proc.state := .held (s.taken 0x11 r)
                streams := s.streams.set i
                  { s.stream i with state := .quiescing, pendingOperation := some .close, drained := false } })
        ∧ ∀ sh : Shape, (s.stream i).state ≠ .closed → (s.stream i).shape = some sh → r.w2.toNat ≤ 1023 →
            (sh.ringSize ≤ r.w2.toNat →
              exec (.restartStream r) s = .next (s.afterTaking.withDone (s.taken 0x12 r) .badParameter .none).looked)
            ∧ (r.w2.toNat < sh.ringSize →
              exec (.restartStream r) s =
                .next { s.afterTaking with
                  proc.state := .held (s.taken 0x12 r)
                  streams := s.streams.set i
                    { s.stream i with
                      state := .quiescing, pendingOperation := some (.restart r.w2.toNat), drained := false } })

/-- QUERY STREAM: BAD_PARAMETER for a stream above 31 or an address that is no multiple of 64; otherwise one 64-byte write of the
snapshot of this moment, with the command held; the end of the write completes it OK or WRITE_ERROR. Of a CLOSED stream with no
marker and named by no bank every word is 0. -/
def Claims.QueryTaken : Prop :=
  (∀ (s : State) (r : CommandRecord), s.Taking →
    (31 < field r.w1 0 8 ∨ (address r.w2 r.w3).toNat % 64 ≠ 0 →
      exec (.queryStream r) s = .next (s.afterTaking.withDone (s.taken 0x13 r) .badParameter .none).looked)
    ∧ ∀ i : StreamId, field r.w1 0 8 = i.val → (address r.w2 r.w3).toNat % 64 = 0 →
        exec (.queryStream r) s =
          .next { s.afterTaking with
            proc.state := .held (s.taken 0x13 r)
            port := s.portWithout .commandProcessor ++
              [{ requester := .streamTable, address := address r.w2 r.w3, transfer := .write (s.snapshot i) }] })
  ∧ (∀ (s : State) (c : Command) (error : Bool), s.host.engine = .ready → s.inFlight .streamTable = true →
      s.proc.state = .held c →
      exec (.snapshotWriteDone error) s =
        .next (({ s with port := s.portWithout .streamTable, proc.state := .idle } : State).withDone c
          (if error then .writeError else .ok) .none).looked)
  ∧ ∀ (s : State) (i : StreamId), s.stream i = Stream.reset → s.markerOf i = none → s.inSchedule i = false →
      s.snapshot i = List.replicate 16 0

/-- The four shape words 2, 3, 4 and 7 of a snapshot, as numbers, and the two words of the ring base. -/
def shapeShown (sh : Shape) (staged : Nat) (w : Nat → Word) : Prop :=
  (w 2).toNat =
      (match sh.kind with | .outStream _ => 0 | .inStream _ => 1)
        + 2 ^ 8 * sh.channels + 2 ^ 16 * sh.period + 2 ^ 24 * sh.phase
  ∧ (w 3).toNat =
      (match sh.kind with | .outStream .repeat => 0 | .outStream .fill => 1 | .inStream .plain => 0 | .inStream .tagged => 1)
        + 2 ^ 8 * sh.depth + 2 ^ 16 * staged
  ∧ w 4 = sh.fillWord ∧ address (w 5) (w 6) = sh.ringBase ∧ (w 7).toNat = sh.ringSize

/-- The sixteen words of a snapshot, as the numbers that their fields make, for every stream whose counts are in their ranges: state,
shape, staging and ring, each 0 where the stream is CLOSED; indices; list, waiting head and request in flight; head progress;
marker; run; fault cause; and which banks name the stream. The state of a QUIESCING stream has no code (log entry 5), and no QUERY
is taken while a stream quiesces. -/
def Claims.SnapshotShows : Prop :=
  ∀ (s : State) (i : StreamId) (c : Stream) (w : Nat → Word), StreamsInv s → c = s.stream i →
    (∀ n, w n = (s.snapshot i).getD n 0) →
    (c.shape = none → c.producer < 2 ^ 16 ∧ c.fetch < 2 ^ 16 ∧ c.retire < 2 ^ 16 ∧ c.list.length < 2 ^ 8) →
    c.stagedWords < 2 ^ 16 → c.runCount < 2 ^ 16 → (∀ e ∈ c.list, e.done < 2 ^ 16) →
    (∀ (m : MarkerId) (b : Binding), s.lines.markers[m].binding = some b → b.advance ≤ 3) →
    (s.snapshot i).length = 16
    ∧ (c.state ≠ .quiescing →
        (w 0).toNat =
          match c.state with | .closed => 0 | .opened => 1 | .live => 2 | .faulted => 3 | .quiescing => 0)
    ∧ w 1 = 0
    ∧ (c.shape = none → w 2 = 0 ∧ w 3 = 0 ∧ w 4 = 0 ∧ w 5 = 0 ∧ w 6 = 0 ∧ w 7 = 0)
    ∧ (∀ sh : Shape, c.shape = some sh → shapeShown sh c.stagedWords w)
    ∧ (w 8).toNat = c.producer + 2 ^ 16 * c.fetch
    ∧ (w 9).toNat =
        c.retire + 2 ^ 16 * c.list.length
          + 2 ^ 24 * (match c.list with | [] => 0 | e :: _ => if e.finished = none then 0 else 1)
          + 2 ^ 25 * (if c.dataInFlight = none then 0 else 1)
    ∧ (w 10).toNat = (match c.list with | [] => 0 | e :: _ => e.done)
    ∧ ((∀ (m : MarkerId) (b : Binding), s.lines.markers[m].binding = some b → b.stream ≠ i) → w 11 = 0)
    ∧ (∀ (m : MarkerId) (b : Binding), s.lines.markers[m].binding = some b → b.stream = i →
        (∀ (m' : MarkerId) (b' : Binding), s.lines.markers[m'].binding = some b' → b'.stream = i → m' = m) →
        (w 11).toNat = 1 + 2 ^ 8 * m.val + 2 ^ 16 * b.advance)
    ∧ (w 12).toNat = (if c.runFlag then 1 else 0) + 2 ^ 16 * c.runCount
    ∧ (w 13).toNat =
        (match c.faultCause with | none => 0 | some .badDescriptor => 1 | some .readError => 2 | some .writeError => 3)
    ∧ (w 14).toNat = (if s.sched.active.names i then 1 else 0) + 2 * (if s.sched.pending.names i then 1 else 0)
    ∧ w 15 = 0

/-- QUERY STREAM and the snapshot that it writes. -/
def Obligations.QueryWritesSnapshot : Prop := Claims.QueryTaken ∧ Claims.SnapshotShows

/-- The fields of the BLOCK_DONE record of a retiring entry, by status: stream, ring index, cookie, status, and the retire index after
the retirement; the elements done, the count of the block, what was done of it, or 0; both frames of the progress record, absent with
nothing done; and the four condition counts, 0 for ABORTED. -/
def Claims.BlockDoneFields : Prop :=
  ∀ (i : StreamId) (size : Nat) (e : Entry) (status : BlockStatus) (b : BlockDone), b = blockDoneOf i size e status →
    b.stream = i ∧ b.ringIndex = e.ringIndex ∧ b.cookie = e.cookie ∧ b.status = status
    ∧ b.retireIndex = (e.ringIndex + 1) % size
    ∧ (status = .complete → b.done = e.count) ∧ (status = .truncated → b.done = e.done) ∧ (status = .aborted → b.done = 0)
    ∧ (b.done = 0 → b.frames = none)
    ∧ (∀ first last, b.done ≠ 0 → e.firstFrame = some first → e.lastFrame = some last → b.frames = some (first, last))
    ∧ (status ≠ .aborted → b.fresh = e.fresh ∧ b.stale = e.stale ∧ b.damaged = e.damaged ∧ b.missing = e.missing)
    ∧ (status = .aborted → b.fresh = 0 ∧ b.stale = 0 ∧ b.damaged = 0 ∧ b.missing = 0)

/-- The status with which the end of a drain finishes the head: the one it has, if it is finished already; otherwise COMPLETE with
every element done, TRUNCATED with some, ABORTED with none. -/
def drainedAs (e : Entry) (status : BlockStatus) : Prop :=
  e.finished = some status
  ∨ (e.finished = none
    ∧ (e.done = e.count → status = .complete) ∧ (e.done ≠ e.count → e.done = 0 → status = .aborted)
    ∧ (e.done ≠ e.count → e.done ≠ 0 → status = .truncated))

/-- The status with which the end of a drain finishes a second entry: the one it has, or ABORTED. -/
def secondDrainedAs (e : Entry) (status : BlockStatus) : Prop :=
  e.finished = some status ∨ (e.finished = none ∧ status = .aborted)

/-- The drain of a quiescing stream is finished: every entry is finished, the head by what was done of it and an entry finished
already as it was. Each retires with a record, whether or not REPORT is set, head first while places are free; one that finds none
stays in the list, finished. With an empty list only the end of the drain is noted. A second entry behind a waiting head is finished
ABORTED whatever was done of it (log entry 25). The cursor then names an entry left in the list, and is absent when none is left. -/
def Claims.DrainFinishesEveryEntry : Prop :=
  ∀ (s : State) (i : StreamId) (size : Nat), s.host.engine = .ready → (s.stream i).state = .quiescing →
    (s.stream i).drained = false → (s.stream i).descriptorInFlight = false → (s.stream i).dataInFlight = none →
    size = (s.stream i).ringSize →
    ((s.stream i).list = [] → exec (.drainFinished i) s = .next (s.afterDrain i [] []))
    ∧ (∀ (e1 : Entry) (a1 : BlockStatus), (s.stream i).list = [e1] → drainedAs e1 a1 →
        (s.placesInUse < 32 →
          exec (.drainFinished i) s = .next (s.afterDrain i [.blockDone (blockDoneOf i size e1 a1)] []))
        ∧ (32 ≤ s.placesInUse →
          exec (.drainFinished i) s = .next (s.afterDrain i [] [{ e1 with finished := some a1 }])))
    ∧ ∀ (e1 e2 : Entry) (a1 a2 : BlockStatus), (s.stream i).list = [e1, e2] → drainedAs e1 a1 → secondDrainedAs e2 a2 →
        (s.placesInUse < 31 →
          exec (.drainFinished i) s =
            .next (s.afterDrain i [.blockDone (blockDoneOf i size e1 a1), .blockDone (blockDoneOf i size e2 a2)] []))
        ∧ (s.placesInUse = 31 →
          exec (.drainFinished i) s =
            .next (s.afterDrain i [.blockDone (blockDoneOf i size e1 a1)] [{ e2 with finished := some a2 }]))
        ∧ (32 ≤ s.placesInUse →
          exec (.drainFinished i) s =
            .next (s.afterDrain i [] [{ e1 with finished := some a1 }, { e2 with finished := some a2 }]))

/-- The end of a drain, and the record that every retirement makes. -/
def Obligations.DrainFinishesBlocks : Prop := Claims.DrainFinishesEveryEntry ∧ Claims.BlockDoneFields

/-- The end of a CLOSE and of a RESTART, once the drain is finished and the list empty: the context is cleared and its depth
returned to the pool, or it is emptied and set to the ring index with its shape kept; the held command completes OK, and the
processor looks for the next record. -/
def Obligations.QuiesceEnds : Prop :=
  ∀ (s : State) (i : StreamId) (sh : Shape) (c : Command), s.host.engine = .ready → (s.stream i).state = .quiescing →
    (s.stream i).drained = true → (s.stream i).list = [] → (s.stream i).shape = some sh → s.proc.state = .held c →
    ((s.stream i).pendingOperation = some .close →
      ∃ t : State, exec (.endOfClose i) s = .next t.looked
        ∧ t.streams = s.streams.set i Stream.reset ∧ t.freePool = s.freePool + sh.depth
        ∧ t.proc = { s.proc with state := .idle }
        ∧ t.comp = { s.comp with
            holding := s.comp.holding ++ [.commandDone c .ok (.closed (s.stream i).retire (s.freePool + sh.depth))]
            reservations := s.comp.reservations - 1 }
        ∧ (∀ m : MarkerId, t.lines.markers[m].active = s.lines.markers[m].active
            ∧ ∀ b, t.lines.markers[m].binding = some b ↔ s.lines.markers[m].binding = some b ∧ b.stream ≠ i)
        ∧ t.lines.sense = s.lines.sense ∧ t.sched = s.sched ∧ t.link = s.link ∧ t.host = s.host ∧ t.port = s.port)
    ∧ ∀ n : Nat, (s.stream i).pendingOperation = some (.restart n) →
        exec (.endOfRestart i) s =
          .next (({ s with
            proc.state := .idle
            streams := s.streams.set i
              { s.stream i with
                state := if s.sched.active.names i then .live else .opened
                samples := [], elements := [], producer := n, fetch := n, retire := n, cursor := none
                lastSamples := List.replicate (s.stream i).lastSamples.length none
                runFlag := false, runCount := 0, faultCause := none, pendingOperation := none, drained := false } } :
            State).withDone c .ok (.ringIndex n)).looked

/-- A stream fault: an error answer to a descriptor or data read or to a data write of a stream in OPEN or LIVE, or a bad descriptor,
puts it in FAULTED with the cause and presents STREAM_FAULT with the ring index of what failed; staging, list and cursor stay as they
stand. -/
def Claims.ErrorsFaultOpenStreams : Prop :=
  ∀ (s : State) (i : StreamId), s.host.engine = .ready → (s.stream i).state = .opened ∨ (s.stream i).state = .live →
    (s.inFlight (.descriptor i) = true →
      exec (.descriptorReadError i) s =
        .next (({ s with
          port := s.portWithout (.descriptor i)
          streams := s.streams.set i
            { s.stream i with descriptorInFlight := false, state := .faulted, faultCause := some .readError } } :
          State).afterEvent (.streamFault i .readError (s.stream i).fetch)))
    ∧ (∀ ws : Vector Word 4, s.inFlight (.descriptor i) = true → (field ws[2] 0 16 = 0 ∨ field ws[0] 0 2 ≠ 0) →
      exec (.descriptorReadDone i ws) s =
        .next (({ s with
          port := s.portWithout (.descriptor i)
          streams := s.streams.set i
            { s.stream i with descriptorInFlight := false, state := .faulted, faultCause := some .badDescriptor } } :
          State).afterEvent (.streamFault i .badDescriptor (s.stream i).fetch)))
    ∧ ∀ (q : Request) (k : Cursor), s.request (.data i) = some q → (s.stream i).cursor = some k →
      (∀ n, q.transfer = .read n →
        exec (.dataReadError i) s =
          .next (({ s with
            port := s.portWithout (.data i)
            streams := s.streams.set i
              { s.stream i with dataInFlight := none, state := .faulted, faultCause := some .readError } } :
            State).afterEvent (.streamFault i .readError k.ringIndex)))
      ∧ ∀ ws, q.transfer = .write ws →
        exec (.dataWriteError i) s =
          .next (({ s with
            port := s.portWithout (.data i)
            streams := s.streams.set i
              { s.stream i with dataInFlight := none, state := .faulted, faultCause := some .writeError } } :
            State).afterEvent (.streamFault i .writeError k.ringIndex))

/-- In FAULTED and in QUIESCING a descriptor or data read that completes without error is discarded. So is an error answer where a
fault cause is present, which is kept with no event; a QUIESCING stream without one records the cause, stays QUIESCING and
STREAM_FAULT is presented. -/
def Claims.LaterErrorsKeepTheState : Prop :=
  ∀ (s : State) (i : StreamId), s.host.engine = .ready → (s.stream i).state = .faulted ∨ (s.stream i).state = .quiescing →
    (∀ d : State,
      d = { s with
        port := s.portWithout (.descriptor i), streams := s.streams.set i { s.stream i with descriptorInFlight := false } } →
      s.inFlight (.descriptor i) = true →
      (∀ ws, exec (.descriptorReadDone i ws) s = .next d)
      ∧ ((s.stream i).state = .faulted ∨ (s.stream i).faultCause ≠ none → exec (.descriptorReadError i) s = .next d)
      ∧ ((s.stream i).state = .quiescing → (s.stream i).faultCause = none →
          exec (.descriptorReadError i) s =
            .next (({ d with streams := d.streams.set i { d.stream i with faultCause := some .readError } } :
              State).afterEvent (.streamFault i .readError (s.stream i).fetch))))
    ∧ ∀ (d : State) (q : Request) (k : Cursor),
      d = { s with port := s.portWithout (.data i), streams := s.streams.set i { s.stream i with dataInFlight := none } } →
      s.request (.data i) = some q → (s.stream i).cursor = some k →
      (∀ n, q.transfer = .read n →
        (∀ ws, exec (.dataReadDone i ws) s = .next d)
        ∧ ((s.stream i).state = .faulted ∨ (s.stream i).faultCause ≠ none → exec (.dataReadError i) s = .next d)
        ∧ ((s.stream i).state = .quiescing → (s.stream i).faultCause = none →
            exec (.dataReadError i) s =
              .next (({ d with streams := d.streams.set i { d.stream i with faultCause := some .readError } } :
                State).afterEvent (.streamFault i .readError k.ringIndex))))
      ∧ ∀ ws, q.transfer = .write ws →
        ((s.stream i).state = .faulted ∨ (s.stream i).faultCause ≠ none → exec (.dataWriteError i) s = .next d)
        ∧ ((s.stream i).state = .quiescing → (s.stream i).faultCause = none →
            exec (.dataWriteError i) s =
              .next (({ d with streams := d.streams.set i { d.stream i with faultCause := some .writeError } } :
                State).afterEvent (.streamFault i .writeError k.ringIndex)))

/-- Errors in OPEN and LIVE, and the answers that come later, in FAULTED and QUIESCING. What a data write without error does there is
stated with the other data writes. -/
def Obligations.ErrorsFaultTheStream : Prop := Claims.ErrorsFaultOpenStreams ∧ Claims.LaterErrorsKeepTheState

/-! ## The Slot Schedule (Chapter 4) -/

/-- The working copy that a LOAD begins with: an empty bank, or the active or the pending bank as it stands then. -/
def workingCopy (s : State) : Basis → Bank
  | .empty => []
  | .active => s.sched.active
  | .pending => s.sched.pending

/-- LOAD SCHEDULE as taken: BAD_PARAMETER for a bad count, address or basis; SWAP_ARMED; held while the retiring mark is set, and
then performed when the mark has cleared; otherwise performed at once from its basis with a first read. That the read covers 16
entries, or all when there are fewer, is the model's choice of "up to 16" (log entry 27). -/
def Obligations.LoadScheduleTaken : Prop :=
  (∀ (s : State) (r : CommandRecord) (valid : Prop), s.Taking →
    (valid ↔ 1 ≤ r.w3.toNat ∧ r.w3.toNat ≤ 512 ∧ (address r.w1 r.w2).toNat % 4 = 0 ∧ r.w4.toNat ≤ 2) →
    (¬ valid → exec (.loadSchedule r) s = .next (s.afterTaking.withDone (s.taken 0x20 r) .badParameter .none).looked)
    ∧ (valid → s.sched.swapArmed = true →
        exec (.loadSchedule r) s = .next (s.afterTaking.withDone (s.taken 0x20 r) .swapArmed .none).looked)
    ∧ ∀ basis : Basis, valid →
        r.w4 = (match basis with | .empty => 0 | .active => 1 | .pending => 2) → s.sched.swapArmed = false →
        (s.sched.retiring = true →
          exec (.loadSchedule r) s =
            .next { s.afterTaking with
              proc.state := .held (s.taken 0x20 r), sched.load := .held (address r.w1 r.w2) r.w3.toNat basis })
        ∧ (s.sched.retiring = false →
          exec (.loadSchedule r) s =
            .next { s.afterTaking with
              proc.state := .held (s.taken 0x20 r)
              sched.load := .performing (workingCopy s basis) (address r.w1 r.w2) r.w3.toNat 0
              port := s.portWithout .commandProcessor ++
                [{ requester := .scheduleUnit, address := address r.w1 r.w2, transfer := .read (min 16 r.w3.toNat) }] }))
  ∧ ∀ (s : State) (a : Addr) (count : Nat) (basis : Basis), s.host.engine = .ready →
      s.sched.load = .held a count basis →
      (s.sched.retiring = true → exec .heldLoadPerformed s = .next s)
      ∧ (s.sched.retiring = false →
          exec .heldLoadPerformed s =
            .next { s with
              sched.load := .performing (workingCopy s basis) a count 0
              port := s.port ++
                [{ requester := .scheduleUnit, address := a, transfer := .read (min 16 count) }] })

/-- The changes of a read are applied one after another in index order: all of them when each applies to the bank that those before
it made, and up to the first that fails, whose change index is that of the read's first entry and the number of changes before it. -/
def Claims.ChangesApplyInOrder : Prop :=
  ∀ (s : State) (n : Nat) (working : Bank),
    s.applyChanges [] n working = .applied working
    ∧ ∀ (before after : List Word) (w : Word) (made : Bank), s.applyChanges before n working = .applied made →
        (∀ bank, s.applyChange made w = .applied bank → s.applyChanges (before ++ [w]) n working = .applied bank)
        ∧ ∀ status reason j, s.applyChange made w = .failed status reason j →
            s.applyChanges (before ++ w :: after) n working = .failed (n + before.length) status reason j

/-- The entries of a change-list read have come: a failed change ends the LOAD with its index, status and reason; the last entry ends
it OK with the working copy as the new pending bank; otherwise the next read follows, from the next change index. A read error ends it
with the index of the first entry of the failed read. A LOAD that fails leaves both banks. That the next read covers 16 entries, or
all that remain, is the model's choice of "up to 16" (log entry 27). -/
def Claims.ChangeListReadEnds : Prop :=
  ∀ (s : State) (c : Command) (q : Request) (entries : List Word) (working : Bank) (a : Addr) (count next : Nat) (free : State),
    s.host.engine = .ready → s.proc.state = .held c → s.request .scheduleUnit = some q →
    q.transfer = .read entries.length → s.sched.load = .performing working a count next →
    free = { s with port := s.portWithout .scheduleUnit, proc.state := .idle, sched.load := .none } →
    (∀ n status reason j, s.applyChanges entries next working = .failed n status reason j →
      exec (.changeListReadDone entries) s = .next (free.withDone c status (.change n reason j)).looked)
    ∧ (∀ done, s.applyChanges entries next working = .applied done →
        (count ≤ next + entries.length →
          exec (.changeListReadDone entries) s =
            .next (({ free with sched.pending := done } : State).withDone c .ok (.placements done.length)).looked)
        ∧ (next + entries.length < count →
          exec (.changeListReadDone entries) s =
            .next { s with
              sched.load := .performing done a count (next + entries.length)
              port := s.portWithout .scheduleUnit ++
                [{ requester := .scheduleUnit, address := hostAddress (a.toNat + 4 * (next + entries.length)),
                   transfer := .read (min 16 (count - (next + entries.length))) }] }))
    ∧ exec .changeListReadError s = .next (free.withDone c .readError (.change next .none none)).looked

/-- A change list: the order of its changes, and the end of each of its reads. -/
def Obligations.ChangeListApplied : Prop := Claims.ChangesApplyInOrder ∧ Claims.ChangeListReadEnds

/-- The checks of a PLACE, in their order; one that passes them all is added to the working copy. -/
def Claims.PlaceChecks : Prop :=
  ∀ (s : State) (working : Bank) (w : Word) (lane : Lane) (slot : SlotId) (i : StreamId) (ch : ChannelId)
    (p : Placement),
    p = { lane := lane, slot := slot, stream := i, channel := ch } →
    field w 28 4 = 1 → field w 24 4 = (match lane with | .outLane => 0 | .inLane => 1) → field w 0 8 = slot.val →
    field w 8 8 = i.val → field w 16 8 = ch.val →
    ((s.stream i).state = .closed → s.applyChange working w = .failed .badChange .closed none)
    ∧ (∀ sh : Shape, (s.stream i).state ≠ .closed → (s.stream i).shape = some sh →
        (sh.kind.lane ≠ lane → s.applyChange working w = .failed .badChange .lane none)
        ∧ (sh.kind.lane = lane → sh.channels ≤ ch.val → s.applyChange working w = .failed .badChange .channel none)
        ∧ (sh.kind.lane = lane → ch.val < sh.channels →
            ((∃ q ∈ working, q.stream = i ∧ q.channel = ch) →
              s.applyChange working w = .failed .badChange .duplicate none)
            ∧ ((∀ q ∈ working, ¬ (q.stream = i ∧ q.channel = ch)) →
                (4 ≤ (working.filter fun q => decide (q.lane = lane ∧ q.slot = slot)).length →
                  s.applyChange working w = .failed .slotFull .none none)
                ∧ ((working.filter fun q => decide (q.lane = lane ∧ q.slot = slot)).length < 4 →
                    ((∀ q ∈ working, q.lane = lane → q.slot = slot → s.streamsCollide i q.stream = false) →
                      ∃ bank, s.applyChange working w = .applied bank ∧ ∀ q, q ∈ bank ↔ q ∈ working ∨ q = p)
                    ∧ ∀ q ∈ working, q.lane = lane → q.slot = slot → s.streamsCollide i q.stream = true →
                        (∀ q' ∈ working, q'.lane = lane → q'.slot = slot → s.streamsCollide i q'.stream = true →
                          q.stream ≤ q'.stream) →
                        s.applyChange working w = .failed .badChange .collision (some q.stream)))))

/-- The checks of a CLEAR: a field out of range, a placement that is not there; otherwise exactly that placement is removed. A change
whose action is neither PLACE nor CLEAR fails as a field out of range. -/
def Claims.ClearChecks : Prop :=
  ∀ (s : State) (working : Bank) (w : Word),
    (1 < field w 24 4 ∨ 47 < field w 0 8 ∨ 31 < field w 8 8 ∨ 7 < field w 16 8 ∨ (field w 28 4 ≠ 1 ∧ field w 28 4 ≠ 2) →
      s.applyChange working w = .failed .badChange .field none)
    ∧ ∀ p : Placement,
        field w 28 4 = 2 → field w 24 4 = (match p.lane with | .outLane => 0 | .inLane => 1) →
        field w 0 8 = p.slot.val → field w 8 8 = p.stream.val → field w 16 8 = p.channel.val →
        (p ∉ working → s.applyChange working w = .failed .badChange .absent none)
        ∧ (p ∈ working → ∃ bank, s.applyChange working w = .applied bank ∧ ∀ q, q ∈ bank ↔ q ∈ working ∧ q ≠ p)

/-- The two schedule changes and their checks. -/
def Obligations.ScheduleChangesChecked : Prop := Claims.PlaceChecks ∧ Claims.ClearChecks

/-- Two placements collide exactly when some frame number makes both streams due; so a stream collides with itself, and one of
period 1 with every other. -/
def Obligations.CollisionRule : Prop :=
  ∀ p1 ∈ periods, ∀ p2 ∈ periods, ∀ h1 h2 : Nat, h1 < p1 → h2 < p2 →
    (collide p1 h1 p2 h2 = true ↔ h1 % min p1 p2 = h2 % min p1 p2)
    ∧ (collide p1 h1 p2 h2 = true ↔ ∃ f : FrameNo, f.toNat % p1 = h1 ∧ f.toNat % p2 = h2)
    ∧ collide p1 h1 p1 h1 = true ∧ (p1 = 1 → collide p1 h1 p2 h2 = true)

/-- COMMIT SCHEDULE: SWAP_ARMED while one is armed; INCOMPLETE with the lowest stream that lacks a channel; otherwise the swap at once
where the link is UNCONFIGURED or STOPPED, with the new generation and no frame, every stream moved by the new active bank, and an armed
swap with the COMMIT outstanding elsewhere. -/
def Claims.CommitJudged : Prop :=
  ∀ (s : State) (r : CommandRecord), s.Taking →
    (s.sched.swapArmed = true →
      exec (.commitSchedule r) s = .next (s.afterTaking.withDone (s.taken 0x21 r) .swapArmed .none).looked)
    ∧ (∀ i : StreamId, s.sched.swapArmed = false → s.sched.pending.names i = true → s.lacksChannel s.sched.pending i = true →
        (∀ j, j < i → s.sched.pending.names j = true → s.lacksChannel s.sched.pending j = false) →
        exec (.commitSchedule r) s = .next (s.afterTaking.withDone (s.taken 0x21 r) .incomplete (.lacking i)).looked)
    ∧ (s.sched.swapArmed = false →
        (∀ j, s.sched.pending.names j = true → s.lacksChannel s.sched.pending j = false) →
        (s.link.state = .waiting ∨ s.link.state = .running ∨ s.link.state = .stopping →
          exec (.commitSchedule r) s =
            .next ({ s.afterTaking with sched.swapArmed := true, sched.commit := some (s.taken 0x21 r) } : State).looked)
        ∧ (s.link.state = .unconfigured ∨ s.link.state = .stopped →
          ∃ t : State, exec (.commitSchedule r) s = .next t.looked
            ∧ t.sched = s.scheduleSwapped
            ∧ t.comp = (s.afterTaking.withDone (s.taken 0x21 r) .ok (.swapped (s.sched.generation + 1) none)).comp
            ∧ t.host = s.host ∧ t.port = s.portWithout .commandProcessor
            ∧ t.proc = s.afterTaking.proc ∧ t.link = s.link ∧ t.ret = s.ret ∧ t.lines = s.lines ∧ t.freePool = s.freePool
            ∧ ∀ i : StreamId, t.stream i = (s.stream i).moved (s.sched.pending.names i)))

/-- A bank names a stream when it holds a placement of it, and lacks a channel of it when the stream has a channel below C that the
bank places nowhere. -/
def Claims.BankLacksAChannel : Prop :=
  ∀ (s : State) (b : Bank) (i : StreamId),
    (b.names i = true ↔ ∃ p ∈ b, p.stream = i)
    ∧ (s.lacksChannel b i = true ↔
        ∃ (sh : Shape) (k : Nat), (s.stream i).shape = some sh ∧ k < sh.channels
          ∧ ∀ p ∈ b, ¬ (p.stream = i ∧ p.channel.val = k))

/-- COMMIT SCHEDULE, and the completeness that it asks for. -/
def Obligations.CommitByLinkState : Prop := Claims.CommitJudged ∧ Claims.BankLacksAChannel

/-- CANCEL COMMIT: with a swap armed, the flag clears, the COMMIT's CANCELLED record enters before the CANCEL's own OK, and banks,
generation and streams stay as they were; with none it completes NOT_ARMED and changes nothing. -/
def Obligations.CancelCommitDisarms : Prop :=
  ∀ (s : State) (r : CommandRecord) (c : Command), s.Taking →
    (s.sched.swapArmed = true → s.sched.commit = some c →
      exec (.cancelCommit r) s =
        .next ((({ s.afterTaking with sched.swapArmed := false, sched.commit := none } : State).withDone c .cancelled
          .none).withDone (s.taken 0x22 r) .ok .none).looked)
    ∧ (s.sched.swapArmed = false →
        exec (.cancelCommit r) s = .next (s.afterTaking.withDone (s.taken 0x22 r) .notArmed .none).looked)

/-! ## Sense lines (Chapter 8) -/

/-- SET SENSE: one select out of range and no line changes; otherwise the eight selects are replaced together, levels, frame marks
and suppressed counts stay, and the completion carries the twelve levels as they stand. -/
def Obligations.SetSenseReplacesSelects : Prop :=
  ∀ (s : State) (r : CommandRecord), s.Taking →
    ((∃ k : LineId, 3 < field r.w1 (4 * k.val) 4) →
      exec (.setSense r) s = .next (s.afterTaking.withDone (s.taken 0x30 r) .badParameter .none).looked)
    ∧ ((∀ k : LineId, field r.w1 (4 * k.val) 4 ≤ 3) →
        ∃ t : State, exec (.setSense r) s = .next t.looked
          ∧ (∀ k : LineId, t.lines.sense[k] =
              { s.lines.sense[k] with
                select :=
                  match field r.w1 (4 * k.val) 4 with
                  | 0 => .none
                  | 1 => .rising
                  | 2 => .falling
                  | _ => .both })
          ∧ t.comp = (s.afterTaking.withDone (s.taken 0x30 r) .ok
              (.levels (s.lines.sense.toList.map (·.level)) (s.lines.markers.toList.map (·.active)))).comp
          ∧ t.lines.markers = s.lines.markers ∧ t.lines.watch = s.lines.watch ∧ t.lines.reports = s.lines.reports
          ∧ { t with lines := s.lines, comp := s.comp } = { s.afterTaking with lines := s.lines, comp := s.comp })

/-- The edge is selected on the line. -/
def edgeSelected (c : SenseLine) (e : Edge) : Prop :=
  c.select = .both ∨ (c.select = .rising ∧ e = .rising) ∨ (c.select = .falling ∧ e = .falling)

/-- An edge on a sense line that no watch waits for. The level changes always. In READY a selected edge makes a record: stamped "no
frame" where the link is not RUNNING, without a rate limit; stamped with the frame and the offset in RUNNING, once in a frame, and
counted as suppressed after that. The count it carries returns to 0 when its record enters and counts the edge when it is dropped.
Any other edge does nothing else. -/
def Obligations.SenseEdgesReported : Prop :=
  ∀ (s : State) (l : LineId) (e : Edge) (micros : Nat) (c : SenseLine),
    (∀ w, s.lines.watch = some w → ¬ (w.line = l ∧ w.edge = e)) →
    c = { s.lines.sense[l] with level := decide (e = .rising) } →
    (¬ edgeSelected s.lines.sense[l] e ∨ s.host.engine ≠ .ready →
      exec (.senseLineEdge l e micros) s = .next { s with lines.sense := s.lines.sense.set l c })
    ∧ (edgeSelected s.lines.sense[l] e → s.host.engine = .ready → s.link.state ≠ .running →
        exec (.senseLineEdge l e micros) s =
          .next (({ s with
            lines.sense := s.lines.sense.set l
              { c with suppressed := if s.freePlace then 0 else min 65535 (c.suppressed + 1) } } : State).afterEvent
                (.senseEdge l e none c.suppressed)))
    ∧ (edgeSelected s.lines.sense[l] e → s.host.engine = .ready → s.link.state = .running → c.frameMark = true →
        exec (.senseLineEdge l e micros) s =
          .next { s with
            lines.sense := s.lines.sense.set l { c with suppressed := min 65535 (c.suppressed + 1) } })
    ∧ ∀ k : LinkConfig, edgeSelected s.lines.sense[l] e → s.host.engine = .ready → s.link.state = .running →
        c.frameMark = false → s.link.config = some k →
        exec (.senseLineEdge l e micros) s =
          .next (({ s with
            lines.sense := s.lines.sense.set l
              { c with frameMark := true, suppressed := if s.freePlace then 0 else min 65535 (c.suppressed + 1) } } :
            State).afterEvent (.senseEdge l e (some (s.link.frame, min micros (k.period - 1))) c.suppressed))

/-- The trigger watch and its report: the watched edge ends the watch and is reported once, whatever the line's select, with
neither frame mark nor suppressed count changed. The report finds the link WAITING and starts frame 0, the START
completing OK before any other record of the step (log entry 14), and a selected edge presents its record with frame 0 and offset 0. A
report that comes too late, or was made before the START that waits (log entry 17), starts nothing, and its selected edge makes a record
with "no frame"; out of READY it makes none (log entry 17). That the select held at the report decides whether the edge is selected is
the model's choice (log entry 26). -/
def Obligations.TriggerStartsTheLink : Prop :=
  (∀ (s : State) (l : LineId) (e : Edge) (micros : Nat), s.lines.watch = some { line := l, edge := e } →
    exec (.senseLineEdge l e micros) s =
      .next { s with
        lines.sense := s.lines.sense.set l { s.lines.sense[l] with level := decide (e = .rising) }
        lines.watch := none
        lines.reports := s.lines.reports ++ [{ line := l, edge := e, current := true }] })
  ∧ (∀ (s : State) (p : TriggerReport) (rest : List TriggerReport) (c : Command), s.lines.reports = p :: rest →
      p.current = true → s.host.engine = .ready → s.link.state = .waiting → s.link.start = some c → s.ret.window = [] →
      ∃ t, exec .triggerEdgeReport s = .next t
        ∧ t.link.state = .running ∧ t.link.frame = 0 ∧ t.link.frameTimer = true ∧ t.link.transmitting = true
        ∧ t.link.timeout = none ∧ t.link.start = none ∧ t.lines.reports = rest
        ∧ t.host = s.host ∧ t.port = s.port ∧ t.proc = s.proc ∧ t.freePool = s.freePool ∧ t.lines.watch = s.lines.watch
        ∧ t.comp.holding[s.comp.holding.length]? = some (.commandDone c .ok .none)
        ∧ t.ret.window.map (·.frame) = [0]
        ∧ (t.lines.sense[p.line].frameMark = true ↔ edgeSelected s.lines.sense[p.line] p.edge)
        ∧ (edgeSelected s.lines.sense[p.line] p.edge →
            Presented s t (.senseEdge p.line p.edge (some (0, 0)) s.lines.sense[p.line].suppressed)))
  ∧ (∀ (s : State) (p : TriggerReport) (rest : List TriggerReport), s.lines.reports = p :: rest →
      (s.host.engine = .ready → s.link.state ≠ .waiting ∨ p.current = false → edgeSelected s.lines.sense[p.line] p.edge →
        exec .triggerEdgeReport s =
          .next (({ s with
            lines.reports := rest
            lines.sense := s.lines.sense.set p.line
              { s.lines.sense[p.line] with
                suppressed :=
                  if s.freePlace then 0 else min 65535 (s.lines.sense[p.line].suppressed + 1) } } : State).afterEvent
            (.senseEdge p.line p.edge none s.lines.sense[p.line].suppressed)))
      ∧ (s.host.engine ≠ .ready
          ∨ ((s.link.state ≠ .waiting ∨ p.current = false) ∧ ¬ edgeSelected s.lines.sense[p.line] p.edge) →
        exec .triggerEdgeReport s = .next { s with lines.reports := rest }))
  ∧ ∀ s : State, s.lines.reports = [] → exec .triggerEdgeReport s = .next s

/-! ## Block rings and the data paths (Chapters 5, 6, 7) -/

/-- A descriptor read is issued for a stream in OPEN or LIVE with room in its list, a descriptor posted and no read in flight, and
for no other. A good descriptor joins the tail of the list with a new progress record, the fetch index advances, and an absent cursor
takes the new entry. -/
def Obligations.DescriptorsAreFetched : Prop :=
  ∀ (s : State) (i : StreamId) (sh : Shape), (s.stream i).shape = some sh → s.host.engine = .ready →
    (((s.stream i).state = .opened ∨ (s.stream i).state = .live) → (s.stream i).list.length < 2 →
      (s.stream i).fetch ≠ (s.stream i).producer → (s.stream i).descriptorInFlight = false →
      exec (.descriptorReadIssue i) s =
        .next { s with
          streams := s.streams.set i { s.stream i with descriptorInFlight := true }
          port := s.port ++
            [{ requester := .descriptor i, address := hostAddress (sh.ringBase.toNat + 16 * (s.stream i).fetch),
               transfer := .read 4 }] })
    ∧ (¬ ((((s.stream i).state = .opened ∨ (s.stream i).state = .live)) ∧ (s.stream i).list.length < 2
          ∧ (s.stream i).fetch ≠ (s.stream i).producer ∧ (s.stream i).descriptorInFlight = false) →
        exec (.descriptorReadIssue i) s = .next s)
    ∧ ∀ ws : Vector Word 4, s.inFlight (.descriptor i) = true → ((s.stream i).state = .opened ∨ (s.stream i).state = .live) →
        field ws[2] 0 16 ≠ 0 → (address ws[0] ws[1]).toNat % 4 = 0 →
        exec (.descriptorReadDone i ws) s =
          .next { s with
            port := s.portWithout (.descriptor i)
            streams := s.streams.set i
              { s.stream i with
                descriptorInFlight := false
                list := (s.stream i).list ++
                  [{ ringIndex := (s.stream i).fetch, buffer := address ws[0] ws[1], count := field ws[2] 0 16,
                     report := ws[3].getLsbD 0, cookie := BitVec.ofNat 16 (field ws[2] 16 16), done := 0,
                     firstFrame := none, lastFrame := none, fresh := 0, stale := 0, damaged := 0, missing := 0,
                     finished := none }]
                fetch := ((s.stream i).fetch + 1) % sh.ringSize
                cursor :=
                  if (s.stream i).cursor = none then some { ringIndex := (s.stream i).fetch, moved := 0 }
                  else (s.stream i).cursor } }

/-- The cursor stands at entry `e` of the list, with `moved` elements fetched or stored of it and `behind` the entries behind it. -/
def CursorAt (c : Stream) (e : Entry) (moved : Nat) (behind : List Entry) : Prop :=
  c.cursor = some { ringIndex := e.ringIndex, moved := moved }
  ∧ ∃ before, c.list = before ++ e :: behind ∧ ∀ x ∈ before, x.ringIndex ≠ e.ringIndex

/-- A cursor at the first of the entries with nothing moved, absent when there is none. -/
def cursorAtFirst : List Entry → Option Cursor
  | [] => none
  | e :: _ => some { ringIndex := e.ringIndex, moved := 0 }

/-- A data read covers the smallest of 16, the free space of staging and the samples of the cursor's entry not yet fetched; its
samples join the tail of staging in order, the block's last one alone with the block-end mark, and the cursor moves, at the end of a
block to the next entry of the list. -/
def Claims.DataReadsJoinStaging : Prop :=
  ∀ (s : State) (i : StreamId) (sh : Shape) (policy : UnderrunPolicy) (e : Entry) (fetched : Nat) (behind : List Entry),
    s.host.engine = .ready → (s.stream i).shape = some sh → sh.kind = .outStream policy →
    ((s.stream i).state = .opened ∨ (s.stream i).state = .live) → CursorAt (s.stream i) e fetched behind →
    fetched < e.count →
    ((s.stream i).dataInFlight = none → (s.stream i).samples.length < sh.depth →
      exec (.dataReadIssue i) s =
        .next { s with
          streams := s.streams.set i
            { s.stream i with
              dataInFlight := some (min 16 (min (sh.depth - (s.stream i).samples.length) (e.count - fetched))) }
          port := s.port ++
            [{ requester := .data i, address := hostAddress (e.buffer.toNat + 4 * fetched),
               transfer := .read (min 16 (min (sh.depth - (s.stream i).samples.length) (e.count - fetched))) }] })
    ∧ ∀ (q : Request) (ws : List Word), s.request (.data i) = some q → q.transfer = .read ws.length → ws ≠ [] →
        fetched + ws.length ≤ e.count →
        ∃ t marked, exec (.dataReadDone i ws) s = .next t
          ∧ t =
            { s with
              port := s.portWithout (.data i)
              streams := s.streams.set i
                { s.stream i with
                  dataInFlight := none
                  samples := (s.stream i).samples ++ marked
                  cursor :=
                    if fetched + ws.length = e.count then cursorAtFirst behind
                    else some { ringIndex := e.ringIndex, moved := fetched + ws.length } } }
          ∧ marked.map (·.value) = ws
          ∧ ∀ (k : Nat) (x : Sample), marked[k]? = some x →
              (x.blockEnd = true ↔ k + 1 = ws.length ∧ fetched + ws.length = e.count)

/-- No data read is issued out of READY, for an in-stream, in a state other than OPEN and LIVE, with the cursor absent, with a data
request in flight, or with staging full. -/
def Claims.NoDataReadOtherwise : Prop :=
  ∀ (s : State) (i : StreamId),
    (s.host.engine ≠ .ready ∨ (s.stream i).state = .closed ∨ (s.stream i).state = .faulted ∨ (s.stream i).state = .quiescing
      ∨ (s.stream i).cursor = none ∨ (s.stream i).dataInFlight.isSome = true
      ∨ (∃ sh, (s.stream i).shape = some sh ∧ (sh.kind.lane = .inLane ∨ sh.depth ≤ (s.stream i).samples.length))) →
    exec (.dataReadIssue i) s = .next s

/-- Data reads: when they are issued and what they bring. -/
def Obligations.DataReadsFillStaging : Prop := Claims.DataReadsJoinStaging ∧ Claims.NoDataReadOtherwise

/-- A data write is issued for a stream in OPEN or LIVE alone, and covers the oldest whole elements, as many as 16 words, the words
staged and the words left of the block allow. -/
def Claims.DataWritesIssued : Prop :=
  ∀ (s : State) (i : StreamId) (sh : Shape) (mode : TagMode) (e : Entry) (stored w n : Nat) (behind : List Entry),
    s.host.engine = .ready → (s.stream i).shape = some sh → sh.kind = .inStream mode →
    w = (match mode with | .plain => 1 | .tagged => 2) → CursorAt (s.stream i) e stored behind → stored < e.count →
    n = min (16 / w) (min (s.stream i).elements.length (e.count - stored)) →
    (((s.stream i).state = .opened ∨ (s.stream i).state = .live) → (s.stream i).dataInFlight = none →
      (s.stream i).elements ≠ [] →
      exec (.dataWriteIssue i) s =
        .next { s with
          streams := s.streams.set i { s.stream i with dataInFlight := some n }
          port := s.port ++
            [{ requester := .data i, address := hostAddress (e.buffer.toNat + 4 * (w * stored)),
               transfer := .write (((s.stream i).elements.take n).flatMap (elementWords mode)) }] })
    ∧ ((s.stream i).state = .faulted ∨ (s.stream i).state = .quiescing ∨ (s.stream i).dataInFlight.isSome = true
        ∨ (s.stream i).elements = [] →
      exec (.dataWriteIssue i) s = .next s)

/-- The progress record of a block after elements are stored of it: the count done and the count of their condition rise by one for
each, the first frame is kept once present, and the last frame is that of the last element. -/
def storedIn (e : Entry) (elements : List Element) : Entry :=
  { e with
    done := e.done + elements.length
    fresh := e.fresh + elements.countP (fun x => decide (x.condition = .fresh))
    stale := e.stale + elements.countP (fun x => decide (x.condition = .stale))
    damaged := e.damaged + elements.countP (fun x => decide (x.condition = .damaged))
    missing := e.missing + elements.countP (fun x => decide (x.condition = .missing))
    firstFrame :=
      match e.firstFrame, elements.head? with
      | some f, _ => some f
      | none, some x => some x.frame
      | none, none => none
    lastFrame :=
      match elements.getLast? with
      | some x => some x.frame
      | none => e.lastFrame }

/-- The end of a data write without error, in OPEN and LIVE for a block that it does not fill, and in FAULTED and QUIESCING for any:
the elements leave staging and count as stored in the block's record, whose finished mark stays clear, and the cursor moves. In OPEN and
LIVE no entry is finished, or the head is and waits for a place while none is free. -/
def Claims.DataWritesStored : Prop :=
  ∀ (s : State) (i : StreamId) (sh : Shape) (mode : TagMode) (e : Entry) (stored n : Nat) (behind : List Entry) (q : Request)
    (ws : List Word),
    s.host.engine = .ready → (s.stream i).shape = some sh → sh.kind = .inStream mode →
    CursorAt (s.stream i) e stored behind → s.request (.data i) = some q → q.transfer = .write ws →
    (s.stream i).dataInFlight = some n → 1 ≤ n → n ≤ (s.stream i).elements.length → stored + n ≤ e.count →
    e.finished = none → (∀ x ∈ (s.stream i).list, x.ringIndex = e.ringIndex → x = e) →
    ((s.stream i).state = .faulted ∨ (s.stream i).state = .quiescing
      ∨ (((s.stream i).state = .opened ∨ (s.stream i).state = .live) ∧ stored + n < e.count ∧ e.done = stored
        ∧ ((∀ x ∈ (s.stream i).list, x.finished = none)
          ∨ (32 ≤ s.placesInUse ∧ ∃ h a l, (s.stream i).list = h :: l ∧ h.finished = some a
            ∧ (h.report = true ∨ a ≠ .complete))))) →
    exec (.dataWriteDone i) s =
      .next { s with
        port := s.portWithout (.data i)
        streams := s.streams.set i
          { s.stream i with
            dataInFlight := none
            elements := (s.stream i).elements.drop n
            list := (s.stream i).list.map fun x => if x = e then storedIn e ((s.stream i).elements.take n) else x
            cursor :=
              if stored + n = e.count then cursorAtFirst behind
              else some { ringIndex := e.ringIndex, moved := stored + n } } }

/-- The words of an element: its value alone in PLAIN mode; in TAGGED mode its value and a tag, which holds the low 16 bits of the
frame number in bits 15 to 0, the channel from bit 16 on, and the condition from bit 24 on, 0 FRESH, 1 STALE, 2 DAMAGED, 3 MISSING. -/
def Claims.ElementWordsOfBothModes : Prop :=
  ∀ x : Element,
    elementWords .plain x = [x.value]
    ∧ (x.channel < 8 →
        ∃ tag : Word, elementWords .tagged x = [x.value, tag]
          ∧ tag.toNat = x.frame.toNat % 2 ^ 16 + 2 ^ 16 * x.channel
              + 2 ^ 24 * (match x.condition with | .fresh => 0 | .stale => 1 | .damaged => 2 | .missing => 3))

/-- Data writes, issued and stored, and the words that they carry. -/
def Obligations.DataWritesStoreElements : Prop :=
  Claims.DataWritesIssued ∧ Claims.DataWritesStored ∧ Claims.ElementWordsOfBothModes

/-- A write of `n` elements is in flight that fills entry `e` of an in-stream in OPEN or LIVE, with the entries given before it and
behind it in the list. -/
def FillsBlock (s : State) (i : StreamId) (sh : Shape) (before : List Entry) (e : Entry) (behind : List Entry) (n : Nat) : Prop :=
  s.host.engine = .ready ∧ (s.stream i).shape = some sh ∧ sh.kind.lane = .inLane
  ∧ ((s.stream i).state = .opened ∨ (s.stream i).state = .live) ∧ (s.stream i).drained = false
  ∧ (s.stream i).list = before ++ e :: behind ∧ (∀ x ∈ before ++ behind, x.ringIndex ≠ e.ringIndex)
  ∧ (s.stream i).cursor = some { ringIndex := e.ringIndex, moved := e.done } ∧ e.finished = none
  ∧ (∃ q ws, s.request (.data i) = some q ∧ q.transfer = .write ws) ∧ (s.stream i).dataInFlight = some n
  ∧ 1 ≤ n ∧ n ≤ (s.stream i).elements.length ∧ e.done + n = e.count

/-- The state after a write of `n` elements, with the list and the retire index given and the cursor at the first of the entries
behind: the request is answered and the elements have left staging, and nothing else has changed. -/
def afterWrite (s : State) (i : StreamId) (n : Nat) (list : List Entry) (retire : Nat) (behind : List Entry) : State :=
  { s with
    port := s.portWithout (.data i)
    streams := s.streams.set i
      { s.stream i with
        dataInFlight := none
        elements := (s.stream i).elements.drop n
        list := list
        retire := retire
        cursor := cursorAtFirst behind } }

/-- The BLOCK_DONE record of an in-block that the elements fill: its frames are those of its first and its last element, and each
condition count is its own. -/
def inBlockDone (i : StreamId) (ringSize : Nat) (e : Entry) (elements : List Element) : BlockDone where
  stream := i
  ringIndex := e.ringIndex
  cookie := e.cookie
  status := .complete
  done := e.count
  frames :=
    match elements.head?, elements.getLast? with
    | some first, some last => some (e.firstFrame.getD first.frame, last.frame)
    | _, _ => none
  fresh := e.fresh + elements.countP (fun x => decide (x.condition = .fresh))
  stale := e.stale + elements.countP (fun x => decide (x.condition = .stale))
  damaged := e.damaged + elements.countP (fun x => decide (x.condition = .damaged))
  missing := e.missing + elements.countP (fun x => decide (x.condition = .missing))
  retireIndex := (e.ringIndex + 1) % ringSize

/-- The write that stores the last element of the head finishes it COMPLETE in the same step: with REPORT set and a place free its
BLOCK_DONE enters, with REPORT clear it retires silently, and with no place free it stays in the list, finished, with the retire
index where it was. The entries behind it stand as they stood, and the cursor moves to the first of them. -/
def Claims.FilledHeadRetires : Prop :=
  ∀ (s : State) (i : StreamId) (sh : Shape) (e : Entry) (behind : List Entry) (n : Nat) (stored : List Element),
    FillsBlock s i sh [] e behind n → (∀ x ∈ behind, x.finished = none) → stored = (s.stream i).elements.take n →
    (e.report = false →
      exec (.dataWriteDone i) s = .next (afterWrite s i n behind (((s.stream i).retire + 1) % sh.ringSize) behind))
    ∧ (e.report = true → s.placesInUse < 32 →
        exec (.dataWriteDone i) s =
          .next { afterWrite s i n behind (((s.stream i).retire + 1) % sh.ringSize) behind with
            comp.holding := s.comp.holding ++ [.blockDone (inBlockDone i sh.ringSize e stored)] })
    ∧ (e.report = true → 32 ≤ s.placesInUse →
        ∃ t, exec (.dataWriteDone i) s = .next t
          ∧ t = afterWrite s i n ({ storedIn e stored with finished := some .complete } :: behind) (s.stream i).retire behind
          ∧ (t.stream i).retirementWaiting = true)

/-- The write that fills the second entry behind a head that is finished and waits, while no place is free, finishes it COMPLETE; it
waits behind the head, and the cursor is absent. -/
def Claims.FilledBlockWaitsBehindHead : Prop :=
  ∀ (s : State) (i : StreamId) (sh : Shape) (head e : Entry) (a : BlockStatus) (n : Nat),
    FillsBlock s i sh [head] e [] n → head.finished = some a → (head.report = true ∨ a ≠ .complete) → 32 ≤ s.placesInUse →
    exec (.dataWriteDone i) s =
      .next (afterWrite s i n
        [head, { storedIn e ((s.stream i).elements.take n) with finished := some .complete }] (s.stream i).retire [])

/-- The write that fills a block, the head's or that of the entry behind a waiting head. -/
def Obligations.FilledBlockRetires : Prop := Claims.FilledHeadRetires ∧ Claims.FilledBlockWaitsBehindHead

/-! ## The completion ring (Chapter 10) -/

/-- The ring write of the head record, with the pass mark as it stands, while there is room; and its end, where no claim waits for
the place that it frees. -/
def Claims.RecordsAreWritten : Prop :=
  ∀ (s : State) (k : CompletionConfig), s.host.engine = .ready → s.comp.config = some k →
    (∀ (r : Record) (rest : List Record), s.comp.holding = r :: rest → s.inFlight .completionUnit = false →
      s.comp.unacknowledged < k.size →
      exec .ringWriteIssue s =
        .next { s with
          port := s.port ++
            [{ requester := .completionUnit, address := hostAddress (k.base.toNat + 32 * s.comp.produce),
               transfer := .write (r.words s.comp.passMark) }] })
    ∧ (s.comp.holding = [] ∨ s.inFlight .completionUnit = true ∨ k.size ≤ s.comp.unacknowledged →
        exec .ringWriteIssue s = .next s)
    ∧ (s.comp.holding ≠ [] → s.inFlight .completionUnit = true → s.comp.produce < k.size →
        (s.noClaim ∨ 32 ≤ s.comp.holding.length - 1 + s.comp.reservations) →
        exec .ringWriteDone s = .next (s.afterRingWrite k))

/-- The codes of R195 are the places in these lists. -/
def statusCodes : List CommandStatus :=
  [.ok, .unknownCommand, .badParameter, .badState, .busy, .noStaging, .inSchedule, .badChange, .slotFull, .incomplete, .swapArmed,
    .notArmed, .timeout, .cancelled, .readError, .writeError]

/-- The reasons of a LOAD that fails, by code. -/
def reasonCodes : List ChangeReason := [.none, .field, .closed, .lane, .channel, .duplicate, .collision, .absent]

/-- Words 3 and 4 of a COMMAND_DONE record. -/
def resultNumbers (result : CommandResult) (w3 w4 : Word) : Prop :=
  match result with
  | .none => w3 = 0 ∧ w4 = 0
  | .freePool n => w3.toNat = n ∧ w4 = 0
  | .closed r n => w3.toNat = r ∧ w4.toNat = n
  | .ringIndex n => w3.toNat = n ∧ w4 = 0
  | .placements n => w3.toNat = n ∧ w4 = 0
  | .change n reason j =>
    w3.toNat = n
    ∧ ∃ k, reasonCodes[k]? = some reason ∧ w4.toNat = k + 2 ^ 8 * (match j with | some j => j.val | Option.none => 0)
  | .swapped g Option.none => w3.toNat = g.toNat ∧ w4 = 0
  | .swapped g (some f) => w3.toNat = g.toNat + 2 ^ 8 ∧ w4 = f
  | .lacking i => w3.toNat = i.val ∧ w4 = 0
  | .levels sense markers =>
    sense.length = 8 → markers.length = 4 →
      (∀ k, k < 8 → w3.getLsbD k = sense.getD k false) ∧ (∀ m, m < 4 → w3.getLsbD (8 + m) = markers.getD m false)
      ∧ w3.toNat < 2 ^ 12 ∧ w4 = 0
  | .posted b => w3.toNat = (if b then 1 else 0) ∧ w4 = 0

/-- The counts in a result are in their ranges. -/
def resultInRange : CommandResult → Prop
  | .none => True
  | .freePool n => n < 2 ^ 16
  | .closed r n => r < 2 ^ 16 ∧ n < 2 ^ 16
  | .ringIndex n => n < 2 ^ 16
  | .placements n => n < 2 ^ 16
  | .change n _ _ => n < 2 ^ 16
  | .swapped _ _ => True
  | .lacking _ => True
  | .levels _ _ => True
  | .posted _ => True

/-- The eight words of a COMMAND_DONE and of a BLOCK_DONE record, as the numbers that their fields make. -/
def Claims.DoneRecordWords : Prop :=
  (∀ (pass : Bool) (c : Command) (status : CommandStatus) (result : CommandResult), c.ringIndex < 2 ^ 16 →
    resultInRange result →
    ∃ w3 w4 code, statusCodes[code]? = some status ∧ resultNumbers result w3 w4
      ∧ (Record.commandDone c status result).words pass =
          [BitVec.ofNat 32 (1 + 2 ^ 7 * (if pass then 1 else 0) + 2 ^ 16 * c.code.toNat),
           BitVec.ofNat 32 (c.ringIndex + 2 ^ 16 * c.tag.toNat), BitVec.ofNat 32 code, w3, w4, 0, 0, 0])
  ∧ ∀ (pass : Bool) (b : BlockDone), b.ringIndex < 2 ^ 16 → b.done < 2 ^ 16 → b.retireIndex < 2 ^ 16 →
      b.fresh < 2 ^ 16 → b.stale < 2 ^ 16 → b.damaged < 2 ^ 16 → b.missing < 2 ^ 16 →
      (Record.blockDone b).words pass =
        [BitVec.ofNat 32 (2 + 2 ^ 7 * (if pass then 1 else 0) + 2 ^ 16 * b.stream.val
            + 2 ^ 24 * (match b.status with | .complete => 0 | .truncated => 1 | .aborted => 2)),
         BitVec.ofNat 32 (b.ringIndex + 2 ^ 16 * b.cookie.toNat),
         BitVec.ofNat 32 (b.done + 2 ^ 16 * b.retireIndex),
         (match b.frames with | none => 0 | some (f, _) => f),
         (match b.frames with | none => 0 | some (_, l) => l),
         BitVec.ofNat 32 (b.fresh + 2 ^ 16 * b.stale), BitVec.ofNat 32 (b.damaged + 2 ^ 16 * b.missing),
         (match b.frames with | none => 0 | some _ => 1)]

/-- The kind of an event and words 1 to 4 of its record, by the event table. -/
def eventNumbers : Event → List Nat
  | .streamStarved i f => [1, i.val, f.toNat, 0, 0]
  | .streamResumed i f n => [2, i.val, f.toNat, n, 0]
  | .streamOverrun i f => [3, i.val, f.toNat, 0, 0]
  | .streamRecovered i f n => [4, i.val, f.toNat, n, 0]
  | .streamFault i c n =>
    [5, i.val + 2 ^ 8 * (match c with | .badDescriptor => 1 | .readError => 2 | .writeError => 3), n, 0, 0]
  | .linkDegraded f w => [6, 0, f.toNat, w.toNat, 0]
  | .linkRestored f n => [7, 0, f.toNat, n, 0]
  | .linkDown c f n => [8, (match c with | .host => 1 | .returnFault => 2 | .engineFault => 3), f.toNat, n, 0]
  | .senseEdge k e none n => [9, k.val + 2 ^ 8 * (match e with | .rising => 0 | .falling => 1), 0, 0, n]
  | .senseEdge k e (some (f, o)) n =>
    [9, k.val + 2 ^ 8 * (match e with | .rising => 0 | .falling => 1) + 2 ^ 16, f.toNat, o, n]
  | .strayNotify sel v => [10, sel, v.toNat, 0, 0]
  | .eventLoss n => [11, 0, 0, n, 0]
  | .hostPosted c a => [12, c, a.toNat, 0, 0]

/-- The eight words of an EVENT record: kind 3 with the event kind, the words of the event table, and 0 in the rest. -/
def Claims.EventRecordWords : Prop :=
  ∀ (pass : Bool) (e : Event) (kind n1 n2 n3 n4 : Nat), eventNumbers e = [kind, n1, n2, n3, n4] →
    (Record.event e).words pass =
      [BitVec.ofNat 32 (3 + 2 ^ 7 * (if pass then 1 else 0) + 2 ^ 8 * kind), BitVec.ofNat 32 n1, BitVec.ofNat 32 n2,
       BitVec.ofNat 32 n3, BitVec.ofNat 32 n4, 0, 0, 0]

/-- How words stand in host memory: of word `k` of a write the byte of bits 8j + 7 to 8j stands 4k + j bytes above the request's
address, and a read of the same bytes is answered by the same words. -/
def Claims.WordsStandInMemory : Prop :=
  ∀ (q : Request) (words : List Word), q.transfer = .write words →
    q.bytesWritten.length = 4 * words.length
    ∧ (∀ (k j : Nat) (w : Word), words[k]? = some w → j < 4 →
        q.bytesWritten[4 * k + j]? =
          some (hostAddress (q.address.toNat + (4 * k + j)), BitVec.ofNat 8 (w.toNat / 2 ^ (8 * j))))
    ∧ ∀ (memory : Addr → Byte) (r : Request), (∀ p ∈ q.bytesWritten, memory p.1 = p.2) → r.address = q.address →
        r.transfer = .read words.length → r.wordsRead memory = words

/-- The writing of records, their words, and the holdoff timer that it starts running out. -/
def Obligations.RingWritesAndHoldoff : Prop :=
  Claims.RecordsAreWritten ∧ Claims.DoneRecordWords ∧ Claims.EventRecordWords ∧ Claims.WordsStandInMemory
  ∧ Claims.HoldoffTimerExpires

/-- The entries that leave the list with a served head: the head, and with it a second entry that is finished and retires silently.
One that is not finished, or must report, stays: as the head, or as a claimant still. -/
def GoneWithHead (c : Stream) (rest left : List Entry) (gone : Nat) : Prop :=
  (left = rest ∧ gone = 1
    ∧ (∀ e2 l, rest = e2 :: l →
        e2.finished = none
        ∨ ∃ a2, e2.finished = some a2 ∧ (e2.report = true ∨ a2 ≠ .complete ∨ c.drained = true)))
  ∨ (∃ e2, rest = e2 :: left ∧ gone = 2 ∧ e2.finished = some .complete ∧ e2.report = false ∧ c.drained = false)

/-- The state `u` with its one claim of the highest order served is `t`: EVENT_LOSS with the count, then the waiting Command
Processor, then the waiting retirement of the lowest-numbered stream. -/
def FirstClaimServed (u t : State) (ring : Ring) : Prop :=
  (0 < u.comp.lossCount ∧ t = u.lossServed)
  ∨ (u.comp.lossCount = 0 ∧ u.proc.state = .waitingPlace ∧ t = u.commandServed ring)
  ∨ (u.comp.lossCount = 0 ∧ u.proc.state ≠ .waitingPlace
    ∧ ∃ (i : StreamId) (e : Entry) (rest left : List Entry) (gone : Nat) (a : BlockStatus),
        (∀ j, j < i → (u.stream j).retirementWaiting = false) ∧ (u.stream i).list = e :: rest ∧ e.finished = some a
        ∧ GoneWithHead (u.stream i) rest left gone ∧ t = u.retirementServed i e a left gone)

/-- The end of a ring write hands its place on in the same step: with a claim standing, the claim of the highest order is served in the
place that the record leaves, so as many places are in use as before. A list that was full is full again, and an event or a claim
that comes later finds no place. -/
def Claims.RingWriteHandsItsPlaceOn : Prop :=
  ∀ (s : State) (k : CompletionConfig) (ring : Ring), s.host.engine = .ready → s.comp.config = some k →
    s.proc.ring = some ring → s.comp.holding ≠ [] → s.inFlight .completionUnit = true → s.comp.produce < k.size →
    s.placesInUse ≤ 32 → ¬ s.noClaim →
    ∃ t, exec .ringWriteDone s = .next t ∧ FirstClaimServed (s.afterRingWrite k) t ring ∧ t.placesInUse = s.placesInUse

/-- Each of the three rows by itself serves its claim in a free place, where no claim of a higher order stands before it, and does
nothing otherwise. In a run a place is handed on by the step that frees it (log entry 12). -/
def Claims.ClaimRowsServeInOrder : Prop :=
  ∀ (s : State) (ring : Ring), s.host.engine = .ready → s.proc.ring = some ring →
    (s.placesInUse < 32 → 0 < s.comp.lossCount →
      exec .eventLoss s = .next s.lossServed
      ∧ exec .waitingCommandServed s = .next s ∧ exec .waitingRetirementServed s = .next s)
    ∧ (s.placesInUse < 32 → s.comp.lossCount = 0 → s.proc.state = .waitingPlace →
        exec .waitingCommandServed s = .next (s.commandServed ring)
        ∧ exec .eventLoss s = .next s ∧ exec .waitingRetirementServed s = .next s)
    ∧ (∀ (i : StreamId) (e : Entry) (rest left : List Entry) (gone : Nat) (a : BlockStatus), s.placesInUse < 32 →
        s.comp.lossCount = 0 → s.proc.state ≠ .waitingPlace → (∀ j, j < i → (s.stream j).retirementWaiting = false) →
        (s.stream i).list = e :: rest → e.finished = some a → GoneWithHead (s.stream i) rest left gone →
        exec .waitingRetirementServed s = .next (s.retirementServed i e a left gone)
        ∧ exec .eventLoss s = .next s ∧ exec .waitingCommandServed s = .next s)
    ∧ (32 ≤ s.placesInUse ∨ s.noClaim →
        exec .eventLoss s = .next s ∧ exec .waitingCommandServed s = .next s ∧ exec .waitingRetirementServed s = .next s)

/-- A place that frees serves one claim, in the order of the three. A retirement of a quiesce leaves the cursor at an entry of the list,
and absent when the list is empty. -/
def Obligations.FreedPlacesServeClaims : Prop := Claims.RingWriteHandsItsPlaceOn ∧ Claims.ClaimRowsServeInOrder

/-! ## The invariants -/

/-- The state right after reset satisfies every invariant. -/
def Obligations.ResetSatisfiesTheInvariants : Prop :=
  PlacesInv State.reset ∧ RingInv State.reset ∧ StagingInv State.reset ∧ WindowInv State.reset ∧ StreamsInv State.reset
  ∧ NamesInv State.reset ∧ BanksInv State.reset ∧ ClaimsInv State.reset ∧ PostedInv State.reset

/-- At most 32 records and reservations are held together, and every reservation has its holder; and free places and claims never stand
together, where every list holds at most two descriptors, a READY engine has its command ring, and every stream but a CLOSED one has a
shape; and in READY an IDLE processor has no record posted, since it looks at each notify and at each end of a command. -/
def Obligations.HoldingListKeepsItsBound : Prop :=
  KeptByEveryStep PlacesInv ∧ KeptByEveryStep ClaimsInv ∧ KeptByEveryStep PostedInv

/-- The produce index is the acknowledge index plus the unacknowledged count, the ring never holds more than its size, and the
holdoff timer runs only with a record unacknowledged. -/
def Obligations.RingCountsAgree : Prop := KeptByEveryStep RingInv

/-- The free pool count is 512 less the depths of the streams that are not CLOSED, and no queue outgrows its depth. -/
def Obligations.StagingKeepsItsBounds : Prop := KeptByEveryStep StagingInv

/-- The return window holds the newest unresolved frames, at most two, in order, each of a generation that has a bank; a STOPPING link
in READY still has an entry in it or a frame in transmission (log entry 11 says which steps make the passage to STOPPED). -/
def Obligations.ReturnWindowStaysInOrder : Prop := KeptByEveryStep WindowInv

/-- Every stream's shape stays legal, its indices stay in the ring, and its list holds at most two descriptors at consecutive
positions from the retire index to the fetch index. -/
def Obligations.RingIndicesStayInOrder : Prop := KeptByEveryStep StreamsInv

/-- Every bank satisfies the placement rules, the active bank is complete, a stream is LIVE exactly when the active bank names it
and it is neither FAULTED nor QUIESCING, and a CLOSED stream is named by no bank. -/
def Obligations.BanksStayAdmissible : Prop := KeptByEveryStep BanksInv
end

