-- ==== Sys2Proof/Laws/State.lean ====
section
/-!
SUPPORT. One lemma per field for each update of the state that the meanings share, so that no later proof unfolds a record update;
and the lookup of a stream after `setStream`.
-/
namespace Sys2Proof.Machine

variable (s : State)

/-! ## setStream -/

@[simp] theorem setStream_pending (i : StreamId) (c : Stream) : (s.setStream i c).pending = s.pending := rfl
@[simp] theorem setStream_host (i : StreamId) (c : Stream) : (s.setStream i c).host = s.host := rfl
@[simp] theorem setStream_port (i : StreamId) (c : Stream) : (s.setStream i c).port = s.port := rfl
@[simp] theorem setStream_proc (i : StreamId) (c : Stream) : (s.setStream i c).proc = s.proc := rfl
@[simp] theorem setStream_comp (i : StreamId) (c : Stream) : (s.setStream i c).comp = s.comp := rfl
@[simp] theorem setStream_freePool (i : StreamId) (c : Stream) : (s.setStream i c).freePool = s.freePool := rfl
@[simp] theorem setStream_sched (i : StreamId) (c : Stream) : (s.setStream i c).sched = s.sched := rfl
@[simp] theorem setStream_link (i : StreamId) (c : Stream) : (s.setStream i c).link = s.link := rfl
@[simp] theorem setStream_ret (i : StreamId) (c : Stream) : (s.setStream i c).ret = s.ret := rfl
@[simp] theorem setStream_lines (i : StreamId) (c : Stream) : (s.setStream i c).lines = s.lines := rfl
@[simp] theorem setStream_freeSeq (i : StreamId) (c : Stream) : (s.setStream i c).freeSeq = s.freeSeq := rfl

/-- The stream written reads as written. -/
@[simp] theorem stream_setStream_self (i : StreamId) (c : Stream) : (s.setStream i c).stream i = c := by
  simp [State.setStream, State.stream]

/-- Every other stream reads as before. -/
theorem stream_setStream_of_ne {i j : StreamId} (c : Stream) (h : j ≠ i) : (s.setStream i c).stream j = s.stream j := by
  have h' : ¬ i.val = j.val := fun e => h (Fin.ext e.symm)
  simp [State.setStream, State.stream, h']

/-- A stream read after a write. -/
theorem stream_setStream (i j : StreamId) (c : Stream) :
    (s.setStream i c).stream j = if j = i then c else s.stream j := by
  split
  · next h => subst h; simp
  · next h => exact stream_setStream_of_ne s c h

/-- Two states with the same contexts have the same streams. -/
theorem stream_congr {s t : State} (h : s.streams = t.streams) (i : StreamId) : s.stream i = t.stream i := by
  simp [State.stream, h]

/-- Contexts are equal when every stream reads the same. -/
theorem streams_ext {s t : State} (h : ∀ i : StreamId, s.stream i = t.stream i) : s.streams = t.streams := by
  apply Vector.ext
  intro k hk
  exact h ⟨k, hk⟩

/-! ## enter, reserve, complete -/

@[simp] theorem enter_comp (r : Record) :
    (s.enter r).comp = { s.comp with holding := s.comp.holding ++ [r] } := rfl
@[simp] theorem enter_host (r : Record) : (s.enter r).host = s.host := rfl
@[simp] theorem enter_proc (r : Record) : (s.enter r).proc = s.proc := rfl
@[simp] theorem enter_streams (r : Record) : (s.enter r).streams = s.streams := rfl
@[simp] theorem enter_sched (r : Record) : (s.enter r).sched = s.sched := rfl
@[simp] theorem enter_link (r : Record) : (s.enter r).link = s.link := rfl
@[simp] theorem enter_ret (r : Record) : (s.enter r).ret = s.ret := rfl
@[simp] theorem enter_lines (r : Record) : (s.enter r).lines = s.lines := rfl
@[simp] theorem enter_port (r : Record) : (s.enter r).port = s.port := rfl
@[simp] theorem enter_stream (r : Record) (i : StreamId) : (s.enter r).stream i = s.stream i := rfl

/-- A record that enters uses one place. -/
theorem placesInUse_enter (r : Record) : (s.enter r).placesInUse = s.placesInUse + 1 := by
  simp [State.placesInUse]; omega

/-- A reservation uses one place. -/
theorem placesInUse_reserve : s.reserve.placesInUse = s.placesInUse + 1 := by
  simp [State.placesInUse, State.reserve]; omega

/-- A completion fills its reservation: the places in use do not change (R158). -/
theorem placesInUse_complete (c : Command) (status : CommandStatus) (result : CommandResult)
    (h : 1 ≤ s.comp.reservations) : (s.complete c status result).placesInUse = s.placesInUse := by
  simp [State.placesInUse, State.complete]; omega

@[simp] theorem complete_host (c : Command) (a : CommandStatus) (b : CommandResult) :
    (s.complete c a b).host = s.host := rfl
@[simp] theorem complete_proc (c : Command) (a : CommandStatus) (b : CommandResult) :
    (s.complete c a b).proc = s.proc := rfl
@[simp] theorem complete_streams (c : Command) (a : CommandStatus) (b : CommandResult) :
    (s.complete c a b).streams = s.streams := rfl
@[simp] theorem complete_stream (c : Command) (a : CommandStatus) (b : CommandResult) (i : StreamId) :
    (s.complete c a b).stream i = s.stream i := rfl
@[simp] theorem complete_sched (c : Command) (a : CommandStatus) (b : CommandResult) :
    (s.complete c a b).sched = s.sched := rfl
@[simp] theorem complete_link (c : Command) (a : CommandStatus) (b : CommandResult) :
    (s.complete c a b).link = s.link := rfl
@[simp] theorem complete_ret (c : Command) (a : CommandStatus) (b : CommandResult) :
    (s.complete c a b).ret = s.ret := rfl
@[simp] theorem complete_lines (c : Command) (a : CommandStatus) (b : CommandResult) :
    (s.complete c a b).lines = s.lines := rfl
@[simp] theorem complete_port (c : Command) (a : CommandStatus) (b : CommandResult) :
    (s.complete c a b).port = s.port := rfl
@[simp] theorem complete_holding (c : Command) (a : CommandStatus) (b : CommandResult) :
    (s.complete c a b).comp.holding = s.comp.holding ++ [.commandDone c a b] := rfl
@[simp] theorem complete_reservations (c : Command) (a : CommandStatus) (b : CommandResult) :
    (s.complete c a b).comp.reservations = s.comp.reservations - 1 := rfl

/-- A command that ends is completed, and the processor is IDLE (R156). -/
theorem endCommand_eq (c : Command) (a : CommandStatus) (b : CommandResult) :
    s.endCommand c a b = { s.withDone c a b with proc.state := .idle } := rfl

/-! ## issue and answered -/

@[simp] theorem issue_port (tag : Requester) (a : Addr) (x : Transfer) :
    (s.issue tag a x).port = s.port ++ [{ requester := tag, address := a, transfer := x }] := rfl
@[simp] theorem issue_host (tag : Requester) (a : Addr) (x : Transfer) : (s.issue tag a x).host = s.host := rfl
@[simp] theorem issue_proc (tag : Requester) (a : Addr) (x : Transfer) : (s.issue tag a x).proc = s.proc := rfl
@[simp] theorem issue_comp (tag : Requester) (a : Addr) (x : Transfer) : (s.issue tag a x).comp = s.comp := rfl
@[simp] theorem issue_streams (tag : Requester) (a : Addr) (x : Transfer) :
    (s.issue tag a x).streams = s.streams := rfl
@[simp] theorem issue_sched (tag : Requester) (a : Addr) (x : Transfer) : (s.issue tag a x).sched = s.sched := rfl
@[simp] theorem issue_link (tag : Requester) (a : Addr) (x : Transfer) : (s.issue tag a x).link = s.link := rfl
@[simp] theorem issue_ret (tag : Requester) (a : Addr) (x : Transfer) : (s.issue tag a x).ret = s.ret := rfl
@[simp] theorem issue_lines (tag : Requester) (a : Addr) (x : Transfer) : (s.issue tag a x).lines = s.lines := rfl

@[simp] theorem answered_port (tag : Requester) : (s.answered tag).port = s.portWithout tag := rfl
@[simp] theorem answered_host (tag : Requester) : (s.answered tag).host = s.host := rfl
@[simp] theorem answered_proc (tag : Requester) : (s.answered tag).proc = s.proc := rfl
@[simp] theorem answered_comp (tag : Requester) : (s.answered tag).comp = s.comp := rfl
@[simp] theorem answered_streams (tag : Requester) : (s.answered tag).streams = s.streams := rfl
@[simp] theorem answered_stream (tag : Requester) (i : StreamId) : (s.answered tag).stream i = s.stream i := rfl
@[simp] theorem answered_sched (tag : Requester) : (s.answered tag).sched = s.sched := rfl
@[simp] theorem answered_link (tag : Requester) : (s.answered tag).link = s.link := rfl
@[simp] theorem answered_ret (tag : Requester) : (s.answered tag).ret = s.ret := rfl
@[simp] theorem answered_lines (tag : Requester) : (s.answered tag).lines = s.lines := rfl
@[simp] theorem answered_pending (tag : Requester) : (s.answered tag).pending = s.pending := rfl

/-- A request is in flight exactly when the Port holds one with its tag. -/
theorem inFlight_iff (tag : Requester) : s.inFlight tag = true ↔ ∃ r ∈ s.port, r.requester = tag := by
  simp [State.inFlight, State.request, List.find?_isSome]

/-- After its answer no request with the tag is in flight. -/
theorem not_inFlight_answered (tag : Requester) : (s.answered tag).inFlight tag = false := by
  rw [Bool.eq_false_iff]
  intro h
  obtain ⟨r, hr, e⟩ := (inFlight_iff _ _).1 h
  simp [State.answered, List.mem_filter] at hr
  exact hr.2 e

/-- The answer to one request leaves those of other tags in flight. -/
theorem inFlight_answered_of_ne {tag other : Requester} (h : other ≠ tag) :
    (s.answered tag).inFlight other = s.inFlight other := by
  rw [Bool.eq_iff_iff, inFlight_iff, inFlight_iff]
  constructor
  · rintro ⟨r, hr, e⟩
    exact ⟨r, (List.mem_filter.1 hr).1, e⟩
  · rintro ⟨r, hr, e⟩
    exact ⟨r, List.mem_filter.2 ⟨hr, by simp [e, h]⟩, e⟩

/-- A request issued is in flight, and others as before. -/
theorem inFlight_issue (tag other : Requester) (a : Addr) (x : Transfer) :
    (s.issue tag a x).inFlight other = (s.inFlight other || decide (tag = other)) := by
  rw [Bool.eq_iff_iff, Bool.or_eq_true, inFlight_iff, inFlight_iff]
  simp [State.issue]

end Sys2Proof.Machine
end

