-- ==== Sys2Proof/Laws/Frames.lean ====
section
/-!
SUPPORT. For each shared operation one lemma that says which groups of the state it can change: the state after is the state
before with those groups as the operation leaves them. A proof that needs an untouched group rewrites with the lemma and
projects.
-/
namespace Sys2Proof.Machine

variable (s : State)

/-! ## Events and retirements: the holding list and the streams -/

/-- Presenting an event changes the Completion Unit alone. -/
theorem present_frame (e : Event) : s.present e = { s with comp := (s.present e).comp } := by
  unfold State.present
  split
  · split <;> rfl
  · rfl

/-- A stray notify changes the Completion Unit alone. -/
theorem stray_frame (n : Nat) (v : BitVec 16) : s.stray n v = { s with comp := (s.stray n v).comp } :=
  present_frame s _

@[simp] theorem present_host (e : Event) : (s.present e).host = s.host := by rw [present_frame]
@[simp] theorem present_port (e : Event) : (s.present e).port = s.port := by rw [present_frame]
@[simp] theorem present_proc (e : Event) : (s.present e).proc = s.proc := by rw [present_frame]
@[simp] theorem present_streams (e : Event) : (s.present e).streams = s.streams := by rw [present_frame]
@[simp] theorem present_stream (e : Event) (i : StreamId) : (s.present e).stream i = s.stream i :=
  stream_congr (present_streams s e) i
@[simp] theorem present_freePool (e : Event) : (s.present e).freePool = s.freePool := by rw [present_frame]
@[simp] theorem present_sched (e : Event) : (s.present e).sched = s.sched := by rw [present_frame]
@[simp] theorem present_link (e : Event) : (s.present e).link = s.link := by rw [present_frame]
@[simp] theorem present_ret (e : Event) : (s.present e).ret = s.ret := by rw [present_frame]
@[simp] theorem present_lines (e : Event) : (s.present e).lines = s.lines := by rw [present_frame]
@[simp] theorem present_pending (e : Event) : (s.present e).pending = s.pending := by rw [present_frame]
@[simp] theorem present_freeSeq (e : Event) : (s.present e).freeSeq = s.freeSeq := by rw [present_frame]

/-- A presented event either enters or is counted as lost, and outside READY does neither: nothing else of the Completion Unit
changes (R165, R167, R168). -/
theorem present_comp (e : Event) :
    (s.present e).comp = s.comp
    ∨ (s.placesInUse < 32 ∧ (s.present e).comp = { s.comp with holding := s.comp.holding ++ [.event e] })
    ∨ (s.present e).comp = { s.comp with lossCount := countUp s.comp.lossCount } := by
  unfold State.present
  split
  · split
    · next h =>
      exact .inr (.inl ⟨by simpa [State.freePlace] using h, rfl⟩)
    · exact .inr (.inr rfl)
  · exact .inl rfl

/-- A retirement that reports changes the holding list and the stream. -/
theorem retireReporting_frame (i : StreamId) (e : Entry) (a : BlockStatus) :
    s.retireReporting i e a
      = { s with comp := (s.retireReporting i e a).comp, streams := (s.retireReporting i e a).streams } := rfl

/-- Retirements change the holding list and the streams. -/
theorem retireHeads_frame (n : Nat) (i : StreamId) :
    ∀ s : State, retireHeads n i s = { s with comp := (retireHeads n i s).comp, streams := (retireHeads n i s).streams } := by
  induction n with
  | zero => intro s; rfl
  | succ n ih =>
    intro s
    unfold retireHeads
    split
    · rfl
    · split
      · rfl
      · split
        · split
          · rw [ih]; rfl
          · rfl
        · rw [ih]; rfl

/-- Retirements change the holding list and the streams. -/
theorem retireFinished_frame (i : StreamId) :
    s.retireFinished i = { s with comp := (s.retireFinished i).comp, streams := (s.retireFinished i).streams } :=
  retireHeads_frame 2 i s

/-- A served retirement changes the holding list and the streams. -/
theorem serveRetirement_frame (i : StreamId) :
    s.serveRetirement i = { s with comp := (s.serveRetirement i).comp, streams := (s.serveRetirement i).streams } := by
  unfold State.serveRetirement
  split
  · rfl
  · split
    · rfl
    · split
      · rfl
      · split
        · rfl
        · split <;> rfl

/-- A stream fault changes the holding list and the streams. -/
theorem faultStream_frame (i : StreamId) (k : StreamFault) (n : Nat) :
    s.faultStream i k n = { s with comp := (s.faultStream i k n).comp, streams := (s.faultStream i k n).streams } := by
  unfold State.faultStream
  dsimp only
  split
  · rfl
  · rw [present_frame]; rfl
  · rw [present_frame]; rfl
  · rfl
  · split
    · rw [present_frame]; rfl
    · rfl

/-! ## Turns -/

/-- A good turn changes the holding list and the streams. -/
theorem goodTurn_frame (i : StreamId) (sh : Shape) (f : FrameNo) :
    s.goodTurn i sh f = { s with comp := (s.goodTurn i sh f).comp, streams := (s.goodTurn i sh f).streams } := by
  unfold State.goodTurn
  dsimp only
  split
  · rw [retireFinished_frame, present_frame]; rfl
  · rw [retireFinished_frame]; rfl

/-- An underrun turn changes the holding list and the streams. -/
theorem underrunTurn_frame (i : StreamId) (f : FrameNo) :
    s.underrunTurn i f = { s with comp := (s.underrunTurn i f).comp, streams := (s.underrunTurn i f).streams } := by
  unfold State.underrunTurn
  dsimp only
  split
  · rfl
  · rw [present_frame]; rfl

/-- A frame's effect on one out-stream changes the holding list and the streams. -/
theorem outStreamTurn_frame (f : FrameNo) (i : StreamId) :
    outStreamTurn f s i
      = { s with comp := (outStreamTurn f s i).comp, streams := (outStreamTurn f s i).streams } := by
  unfold outStreamTurn
  dsimp only
  split
  · rfl
  · split
    · split
      · exact goodTurn_frame s _ _ _
      · exact underrunTurn_frame s _ _
    · rfl

/-- A turn taken or lost changes the holding list and the streams. -/
theorem takeInTurn_frame (i : StreamId) (sh : Shape) (f : FrameNo) (turn : List Element) :
    s.takeInTurn i sh f turn
      = { s with comp := (s.takeInTurn i sh f turn).comp, streams := (s.takeInTurn i sh f turn).streams } := by
  unfold State.takeInTurn
  dsimp only
  split
  · split
    · rw [present_frame]; rfl
    · rfl
  · split
    · rfl
    · rw [present_frame]; rfl

/-- A resolution's effect on one in-stream changes the holding list and the streams. -/
theorem inStreamTurn_frame (b : Bank) (f : FrameNo) (r : Resolution) (ws : List Word) (i : StreamId) :
    inStreamTurn b f r ws s i
      = { s with comp := (inStreamTurn b f r ws s i).comp, streams := (inStreamTurn b f r ws s i).streams } := by
  unfold inStreamTurn
  dsimp only
  split
  · rfl
  · split
    · rfl
    · split
      · exact takeInTurn_frame s _ _ _ _
      · rfl

/-- A fold of steps that each change the holding list and the streams alone does the same. -/
theorem foldl_frame (g : State → StreamId → State)
    (h : ∀ (s : State) (i : StreamId), g s i = { s with comp := (g s i).comp, streams := (g s i).streams })
    (l : List StreamId) :
    ∀ s : State, l.foldl g s = { s with comp := (l.foldl g s).comp, streams := (l.foldl g s).streams } := by
  induction l with
  | nil => intro s; rfl
  | cons i rest ih =>
    intro s
    rw [List.foldl_cons, ih, h]

/-- The out-stream turns of a frame change the holding list and the streams. -/
theorem outTurns_frame (f : FrameNo) (l : List StreamId) :
    l.foldl (outStreamTurn f) s
      = { s with comp := (l.foldl (outStreamTurn f) s).comp, streams := (l.foldl (outStreamTurn f) s).streams } :=
  foldl_frame _ (fun s i => outStreamTurn_frame s f i) l s

/-- The in-stream turns of a resolution change the holding list and the streams. -/
theorem inTurns_frame (b : Bank) (f : FrameNo) (r : Resolution) (ws : List Word) (l : List StreamId) :
    l.foldl (inStreamTurn b f r ws) s
      = { s with
          comp := (l.foldl (inStreamTurn b f r ws) s).comp
          streams := (l.foldl (inStreamTurn b f r ws) s).streams } :=
  foldl_frame _ (fun s i => inStreamTurn_frame s b f r ws i) l s

/-! ## The link -/

/-- A swap changes the Schedule Unit and the streams. -/
theorem swap_frame : s.swap = { s with sched := s.swap.sched, streams := s.swap.streams } := rfl

/-- An armed swap leaves every group but the Schedule Unit, the streams and the holding list. -/
theorem performArmedSwap_keeps (f : Option FrameNo) :
    (s.performArmedSwap f).pending = s.pending ∧ (s.performArmedSwap f).host = s.host
    ∧ (s.performArmedSwap f).port = s.port ∧ (s.performArmedSwap f).proc = s.proc
    ∧ (s.performArmedSwap f).freePool = s.freePool ∧ (s.performArmedSwap f).link = s.link
    ∧ (s.performArmedSwap f).ret = s.ret ∧ (s.performArmedSwap f).lines = s.lines
    ∧ (s.performArmedSwap f).freeSeq = s.freeSeq := by
  unfold State.performArmedSwap
  split
  · split <;> simp only [State.complete, State.swap, and_self]
  · simp only [and_self]

/-- An armed swap changes the Schedule Unit, the streams and the holding list. -/
theorem performArmedSwap_frame (f : Option FrameNo) :
    s.performArmedSwap f
      = { s with
          sched := (s.performArmedSwap f).sched
          streams := (s.performArmedSwap f).streams
          comp := (s.performArmedSwap f).comp } := by
  obtain ⟨h1, h2, h3, h4, h5, h6, h7, h8, h9⟩ := performArmedSwap_keeps s f
  generalize s.performArmedSwap f = t at *
  cases t
  cases s
  simp_all

/-- A START's completion changes the link and the holding list. -/
theorem completeStart_frame (a : CommandStatus) :
    s.completeStart a = { s with link := (s.completeStart a).link, comp := (s.completeStart a).comp } := by
  unfold State.completeStart
  split <;> rfl

/-- A STOP's completion changes the link and the holding list. -/
theorem completeStop_frame : s.completeStop = { s with link := s.completeStop.link, comp := s.completeStop.comp } := by
  unfold State.completeStop
  split <;> rfl

/-- LINK_DOWN changes the holding list. -/
theorem presentLinkDown_frame : s.presentLinkDown = { s with comp := s.presentLinkDown.comp } := by
  unfold State.presentLinkDown
  split
  · rfl
  · rfl
  · exact present_frame s _
  · rfl

/-- The entry to STOPPED changes the link, the Schedule Unit, the streams, the lines and the holding list (R32). -/
theorem enterStopped_frame (a : CommandStatus) :
    s.enterStopped a
      = { s with
          link := (s.enterStopped a).link
          sched := (s.enterStopped a).sched
          streams := (s.enterStopped a).streams
          lines := (s.enterStopped a).lines
          comp := (s.enterStopped a).comp } := by
  unfold State.enterStopped
  dsimp only
  rw [presentLinkDown_frame, completeStop_frame, State.markersOff, performArmedSwap_frame, completeStart_frame]

/-- The passage to STOPPED, when it is due, changes what the entry does. -/
theorem stopWhenDone_frame :
    s.stopWhenDone
      = { s with
          link := s.stopWhenDone.link
          sched := s.stopWhenDone.sched
          streams := s.stopWhenDone.streams
          lines := s.stopWhenDone.lines
          comp := s.stopWhenDone.comp } := by
  unfold State.stopWhenDone
  split
  · exact enterStopped_frame s _
  · rfl

/-- A GOOD resolution's health update changes the link and the holding list. -/
theorem goodReturn_frame (f : FrameNo) :
    s.goodReturn f = { s with link := (s.goodReturn f).link, comp := (s.goodReturn f).comp } := by
  unfold State.goodReturn
  split
  · rfl
  · rw [present_frame]

/-- A bad return changes the link and the holding list. -/
theorem badReturn_frame (f : FrameNo) :
    s.badReturn f = { s with link := (s.badReturn f).link, comp := (s.badReturn f).comp } := by
  unfold State.badReturn
  dsimp only
  split
  · split
    · rw [present_frame]; rfl
    · rfl
  · split
    · rw [present_frame]
    · rfl

/-- A bad return that resolves no entry changes what the entry to STOPPED does. -/
theorem unmatchedReturn_frame (f : FrameNo) :
    s.unmatchedReturn f
      = { s with
          link := (s.unmatchedReturn f).link
          sched := (s.unmatchedReturn f).sched
          streams := (s.unmatchedReturn f).streams
          lines := (s.unmatchedReturn f).lines
          comp := (s.unmatchedReturn f).comp } := by
  unfold State.unmatchedReturn
  rw [stopWhenDone_frame, badReturn_frame]

/-- The notice after an entry leaves the window changes what the entry to STOPPED does. -/
theorem windowNotice_frame :
    s.windowNotice
      = { s with
          link := s.windowNotice.link
          sched := s.windowNotice.sched
          streams := s.windowNotice.streams
          lines := s.windowNotice.lines
          comp := s.windowNotice.comp } := by
  unfold State.windowNotice
  rw [stopWhenDone_frame]

/-- A resolution leaves the window to its caller: it changes what the notice does and nothing else. -/
theorem resolve_frame (e : WindowEntry) (r : Resolution) (ws : List Word) :
    s.resolve e r ws
      = { s with
          link := (s.resolve e r ws).link
          sched := (s.resolve e r ws).sched
          streams := (s.resolve e r ws).streams
          lines := (s.resolve e r ws).lines
          comp := (s.resolve e r ws).comp } := by
  unfold State.resolve
  dsimp only
  cases r <;> dsimp only <;> rw [windowNotice_frame] <;>
    first
      | rw [goodReturn_frame, inTurns_frame]
      | rw [badReturn_frame, inTurns_frame]

/-- After a resolution the window is as its caller left it. -/
@[simp] theorem resolve_ret (e : WindowEntry) (r : Resolution) (ws : List Word) : (s.resolve e r ws).ret = s.ret := by
  rw [resolve_frame]

/-- The oldest entry leaves, and nothing else of the Return Unit changes (R9). -/
theorem resolveOldestMissing_ret :
    s.resolveOldestMissing.ret = { s.ret with window := s.ret.window.tail } := by
  unfold State.resolveOldestMissing
  cases h : s.ret.window with
  | nil =>
    have e : s.ret = { s.ret with window := [] } := by rw [← h]
    exact e
  | cons e rest => simp

/-- Resolving the oldest entry changes the Return Unit's window and what a resolution does. -/
theorem resolveOldestMissing_frame :
    s.resolveOldestMissing
      = { s with
          link := s.resolveOldestMissing.link
          sched := s.resolveOldestMissing.sched
          streams := s.resolveOldestMissing.streams
          lines := s.resolveOldestMissing.lines
          comp := s.resolveOldestMissing.comp
          ret := s.resolveOldestMissing.ret } := by
  unfold State.resolveOldestMissing
  split
  · rfl
  · rw [resolve_frame]

/-- Resolving entries up to a frame changes the same groups. -/
theorem resolveThrough_frame (k : Nat) (n : FrameNo) (r : Resolution) (ws : List Word) :
    ∀ s : State, resolveThrough k n r ws s
      = { s with
          link := (resolveThrough k n r ws s).link
          sched := (resolveThrough k n r ws s).sched
          streams := (resolveThrough k n r ws s).streams
          lines := (resolveThrough k n r ws s).lines
          comp := (resolveThrough k n r ws s).comp
          ret := (resolveThrough k n r ws s).ret } := by
  induction k with
  | zero => intro s; rfl
  | succ k ih =>
    intro s
    unfold resolveThrough
    split
    · rfl
    · split
      · rw [resolve_frame]
      · rw [ih, resolveOldestMissing_frame]

/-- An arrival changes the link, the schedule, the streams, the lines, the holding list, the Return Unit and the free-value
counter. -/
theorem takeArrival_frame (ws : List Word) (ragged : Bool) :
    s.takeArrival ws ragged
      = { s with
          link := (s.takeArrival ws ragged).link
          sched := (s.takeArrival ws ragged).sched
          streams := (s.takeArrival ws ragged).streams
          lines := (s.takeArrival ws ragged).lines
          comp := (s.takeArrival ws ragged).comp
          ret := (s.takeArrival ws ragged).ret
          freeSeq := (s.takeArrival ws ragged).freeSeq } := by
  unfold State.takeArrival
  split
  · rfl
  · split
    · unfold State.takeGoodReturn
      dsimp only
      split
      · rw [resolveThrough_frame]
      · rw [unmatchedReturn_frame]
    · unfold State.takeDamagedReturn
      split
      · rw [unmatchedReturn_frame]
      · split
        · rw [resolveThrough_frame]
        · rw [unmatchedReturn_frame]

/-- Appending to the window changes what a resolution does and the Return Unit. -/
theorem appendToWindow_frame (f : FrameNo) (g : Gen) :
    s.appendToWindow f g
      = { s with
          link := (s.appendToWindow f g).link
          sched := (s.appendToWindow f g).sched
          streams := (s.appendToWindow f g).streams
          lines := (s.appendToWindow f g).lines
          comp := (s.appendToWindow f g).comp
          ret := (s.appendToWindow f g).ret } := by
  unfold State.appendToWindow
  dsimp only
  split
  · rw [resolveOldestMissing_frame]
  · rfl

/-- Settling the bank of a frame changes the Schedule Unit, the streams and the holding list (R77). -/
theorem settleBank_frame (f : FrameNo) :
    s.settleBank f
      = { s with
          sched := (s.settleBank f).sched
          streams := (s.settleBank f).streams
          comp := (s.settleBank f).comp } := by
  unfold State.settleBank
  split
  · exact performArmedSwap_frame s _
  · rfl

/-- A frame start changes the link, the schedule, the streams, the lines, the holding list and the Return Unit (R23). -/
theorem frameStart_frame (f : FrameNo) :
    s.frameStart f
      = { s with
          link := (s.frameStart f).link
          sched := (s.frameStart f).sched
          streams := (s.frameStart f).streams
          lines := (s.frameStart f).lines
          comp := (s.frameStart f).comp
          ret := (s.frameStart f).ret } := by
  unfold State.frameStart
  dsimp only
  generalize hb : ({ s with link.frame := f, link.frameTimer := true } : State).settleBank f = b
  have hb' : b = { s with link := b.link, sched := b.sched, streams := b.streams, comp := b.comp } := by
    rw [← hb, settleBank_frame]
  rw [State.transmit, State.setLines, appendToWindow_frame, outTurns_frame]
  generalize State.appendToWindow _ _ _ = t
  generalize List.foldl _ _ _ = u
  rw [hb']

/-- The entry to FAULT changes the Host Window, the link, the window, the schedule and the lines, and freezes the rest (R186). -/
theorem enterFault_frame (k : FaultCause) :
    s.enterFault k
      = { s with
          host := (s.enterFault k).host
          link := (s.enterFault k).link
          ret := (s.enterFault k).ret
          sched := (s.enterFault k).sched
          lines := (s.enterFault k).lines } := rfl

end Sys2Proof.Machine
end

