-- ==== Sys2Proof/Laws/Turns.lean ====
section
/-!
SUPPORT. What events, retirements and turns do to the Completion Unit and to the stream contexts, said once: the holding list
grows within its bound and every counter of the ring stays (`OnlyRecords`), and a stream changes in the named fields alone.
-/
namespace Sys2Proof.Machine

/-! ## The Completion Unit -/

/-- From `s` to `t` the Completion Unit has at most gained records, within the bound of 32, and counted lost events. -/
def OnlyRecords (s t : State) : Prop :=
  t.comp = { s.comp with holding := t.comp.holding, lossCount := t.comp.lossCount }
  ∧ (s.placesInUse ≤ 32 → t.placesInUse ≤ 32)

theorem OnlyRecords.refl (s : State) : OnlyRecords s s := ⟨rfl, id⟩

theorem OnlyRecords.of_comp {s t : State} (h : t.comp = s.comp) : OnlyRecords s t := by
  refine ⟨by rw [h], ?_⟩
  simp [State.placesInUse, h]

theorem OnlyRecords.trans {s t u : State} (h : OnlyRecords s t) (k : OnlyRecords t u) : OnlyRecords s u := by
  refine ⟨?_, fun e => k.2 (h.2 e)⟩
  rw [k.1, h.1]

/-- A record entered into a place not in use. -/
theorem onlyRecords_enter (s : State) (r : Record) (h : s.placesInUse < 32) : OnlyRecords s (s.enter r) := by
  refine ⟨rfl, fun _ => ?_⟩
  rw [placesInUse_enter]
  omega

theorem onlyRecords_setStream (s : State) (i : StreamId) (c : Stream) : OnlyRecords s (s.setStream i c) :=
  .of_comp rfl

/-- An event enters a free place or is counted (R167, R168). -/
theorem onlyRecords_present (s : State) (e : Event) : OnlyRecords s (s.present e) := by
  rcases present_comp s e with h | ⟨h, k⟩ | h
  · exact .of_comp h
  · refine ⟨by rw [k], fun _ => ?_⟩
    simp only [State.placesInUse, k, List.length_append, List.length_singleton] at h ⊢
    omega
  · refine ⟨by rw [h], ?_⟩
    simp [State.placesInUse, h]

/-- A free place is a place not in use. -/
theorem placesInUse_of_freePlace {s : State} (h : s.freePlace = true) : s.placesInUse < 32 := by
  simpa [State.freePlace] using h

theorem onlyRecords_retireReporting (s : State) (i : StreamId) (e : Entry) (a : BlockStatus) (h : s.placesInUse < 32) :
    OnlyRecords s (s.retireReporting i e a) :=
  (onlyRecords_enter s _ h).trans (onlyRecords_setStream _ _ _)

theorem onlyRecords_retireHeads (n : Nat) (i : StreamId) : ∀ s : State, OnlyRecords s (retireHeads n i s) := by
  induction n with
  | zero => exact fun s => .refl s
  | succ n ih =>
    intro s
    unfold retireHeads
    split
    · exact .refl s
    · split
      · exact .refl s
      · split
        · split
          · next h => exact (onlyRecords_retireReporting s i _ _ (placesInUse_of_freePlace h)).trans (ih _)
          · exact .refl s
        · exact (onlyRecords_setStream s i _).trans (ih _)

/-- Retirements enter their records into free places (R94, R96). -/
theorem onlyRecords_retireFinished (s : State) (i : StreamId) : OnlyRecords s (s.retireFinished i) :=
  onlyRecords_retireHeads 2 i s

/-- A waiting retirement is served with one place (R96). -/
theorem onlyRecords_serveRetirement (s : State) (i : StreamId) (h : s.placesInUse < 32) :
    OnlyRecords s (s.serveRetirement i) := by
  unfold State.serveRetirement
  split
  · exact .refl s
  · split
    · exact .refl s
    · dsimp only
      have step := onlyRecords_retireReporting s i (h := h)
      split
      · exact step _ _
      · split
        · exact step _ _
        · split
          · exact step _ _
          · exact (step _ _).trans (onlyRecords_setStream _ _ _)

/-- A stream fault presents at most one event (R47, R49). -/
theorem onlyRecords_faultStream (s : State) (i : StreamId) (k : StreamFault) (n : Nat) :
    OnlyRecords s (s.faultStream i k n) := by
  unfold State.faultStream
  dsimp only
  split
  · exact .refl s
  · exact (onlyRecords_setStream s i _).trans (onlyRecords_present _ _)
  · exact (onlyRecords_setStream s i _).trans (onlyRecords_present _ _)
  · exact .refl s
  · split
    · exact (onlyRecords_setStream s i _).trans (onlyRecords_present _ _)
    · exact .refl s

theorem onlyRecords_outStreamTurn (f : FrameNo) (s : State) (i : StreamId) : OnlyRecords s (outStreamTurn f s i) := by
  unfold outStreamTurn
  dsimp only
  split
  · exact .refl s
  · split
    · split
      · unfold State.goodTurn
        dsimp only
        split
        · exact ((onlyRecords_present s _).trans (onlyRecords_setStream _ _ _)).trans (onlyRecords_retireFinished _ _)
        · exact (onlyRecords_setStream _ _ _).trans (onlyRecords_retireFinished _ _)
      · unfold State.underrunTurn
        dsimp only
        split
        · exact onlyRecords_setStream _ _ _
        · exact (onlyRecords_setStream _ _ _).trans (onlyRecords_present _ _)
    · exact .refl s

theorem onlyRecords_inStreamTurn (b : Bank) (f : FrameNo) (r : Resolution) (ws : List Word) (s : State) (i : StreamId) :
    OnlyRecords s (inStreamTurn b f r ws s i) := by
  unfold inStreamTurn
  dsimp only
  split
  · exact .refl s
  · split
    · exact .refl s
    · split
      · unfold State.takeInTurn
        dsimp only
        split
        · split
          · exact (onlyRecords_present s _).trans (onlyRecords_setStream _ _ _)
          · exact onlyRecords_setStream _ _ _
        · split
          · exact onlyRecords_setStream _ _ _
          · exact (onlyRecords_setStream _ _ _).trans (onlyRecords_present _ _)
      · exact .refl s

theorem onlyRecords_foldl (g : State → StreamId → State) (h : ∀ s i, OnlyRecords s (g s i)) (l : List StreamId) :
    ∀ s : State, OnlyRecords s (l.foldl g s) := by
  induction l with
  | nil => exact fun s => .refl s
  | cons i rest ih => exact fun s => (h s i).trans (ih _)

/-- The out-stream turns of a frame. -/
theorem onlyRecords_outTurns (s : State) (f : FrameNo) (l : List StreamId) :
    OnlyRecords s (l.foldl (outStreamTurn f) s) :=
  onlyRecords_foldl _ (onlyRecords_outStreamTurn f) l s

/-- The in-stream turns of a resolution. -/
theorem onlyRecords_inTurns (s : State) (b : Bank) (f : FrameNo) (r : Resolution) (ws : List Word) (l : List StreamId) :
    OnlyRecords s (l.foldl (inStreamTurn b f r ws) s) :=
  onlyRecords_foldl _ (onlyRecords_inStreamTurn b f r ws) l s

/-! ## The stream contexts -/

@[simp] theorem cursorIn_nil (k : Cursor) : cursorIn [] k = none := rfl

/-- The cursor over the entries left names one of them (R101, R127). -/
theorem cursorIn_names {left : List Entry} {k k' : Cursor} (h : cursorIn left k = some k') :
    ∃ e ∈ left, e.ringIndex = k'.ringIndex := by
  unfold cursorIn at h
  split at h
  · next hk => cases h; simpa using hk
  · cases left with
    | nil => cases h
    | cons e rest => cases h; exact ⟨e, by simp, rfl⟩

/-- The head of a drained stream leaves with the cursor on an entry left behind it, or absent (R101, R127). -/
theorem popHead_cursor {c : Stream} {k : Cursor} (hd : c.drained = true) (h : c.popHead.cursor = some k) :
    ∃ e ∈ c.popHead.list, e.ringIndex = k.ringIndex := by
  simp only [Stream.popHead, Stream.cursorOver, hd, if_true, Option.bind_eq_some_iff] at h
  obtain ⟨_, _, h⟩ := h
  exact cursorIn_names h

/-- The head of a stream that is not drained leaves with the cursor where it stands: behind it (R104, R129). -/
theorem popHead_cursor_of_not_drained {c : Stream} (hd : c.drained = false) : c.popHead.cursor = c.cursor := by
  simp [Stream.popHead, Stream.cursorOver, hd]

/-- Retirements change a stream's list, cursor and retire index alone (R94). -/
theorem stream_retireHeads (n : Nat) (i j : StreamId) :
    ∀ s : State, (retireHeads n i s).stream j
      = { s.stream j with
          list := ((retireHeads n i s).stream j).list
          cursor := ((retireHeads n i s).stream j).cursor
          retire := ((retireHeads n i s).stream j).retire } := by
  induction n with
  | zero => intro s; rfl
  | succ n ih =>
    intro s
    unfold retireHeads
    split
    · rfl
    · split
      · rfl
      · split
        · split
          · rw [ih, State.retireReporting, stream_setStream]
            split
            · next h => subst h; rfl
            · rfl
          · rfl
        · rw [ih, State.retireSilently, stream_setStream]
          split
          · next h => subst h; rfl
          · rfl

/-- Retirements of one stream leave every other as it is. -/
theorem stream_retireHeads_of_ne (n : Nat) {i j : StreamId} (h : j ≠ i) :
    ∀ s : State, (retireHeads n i s).stream j = s.stream j := by
  induction n with
  | zero => intro s; rfl
  | succ n ih =>
    intro s
    unfold retireHeads
    split
    · rfl
    · split
      · rfl
      · split
        · split
          · rw [ih, State.retireReporting, stream_setStream_of_ne _ _ h]; rfl
          · rfl
        · rw [ih, State.retireSilently, stream_setStream_of_ne _ _ h]

/-- Retirements change a stream's list, cursor and retire index alone (R94). -/
theorem stream_retireFinished (s : State) (i j : StreamId) :
    (s.retireFinished i).stream j
      = { s.stream j with
          list := ((s.retireFinished i).stream j).list
          cursor := ((s.retireFinished i).stream j).cursor
          retire := ((s.retireFinished i).stream j).retire } :=
  stream_retireHeads 2 i j s

/-- A frame's turn changes a stream's samples, last samples, run, list, cursor and retire index alone (R107, R108, R113, R115). -/
theorem stream_outStreamTurn (f : FrameNo) (s : State) (i j : StreamId) :
    (outStreamTurn f s i).stream j
      = { s.stream j with
          samples := ((outStreamTurn f s i).stream j).samples
          lastSamples := ((outStreamTurn f s i).stream j).lastSamples
          runFlag := ((outStreamTurn f s i).stream j).runFlag
          runCount := ((outStreamTurn f s i).stream j).runCount
          list := ((outStreamTurn f s i).stream j).list
          cursor := ((outStreamTurn f s i).stream j).cursor
          retire := ((outStreamTurn f s i).stream j).retire } := by
  unfold outStreamTurn
  dsimp only
  split
  · rfl
  · split
    · split
      · unfold State.goodTurn
        dsimp only
        rw [stream_retireFinished]
        generalize State.retireFinished _ _ = t
        rw [stream_setStream]
        split
        · next h => subst h; rfl
        · split
          · rw [present_stream]
          · rfl
      · unfold State.underrunTurn
        dsimp only
        split
        · rw [stream_setStream]
          split
          · next h => subst h; rfl
          · rfl
        · rw [present_stream, stream_setStream]
          split
          · next h => subst h; rfl
          · rfl
    · rfl

/-- A turn of one stream leaves every other as it is. -/
theorem stream_outStreamTurn_of_ne (f : FrameNo) (s : State) {i j : StreamId} (h : j ≠ i) :
    (outStreamTurn f s i).stream j = s.stream j := by
  unfold outStreamTurn
  dsimp only
  split
  · rfl
  · split
    · split
      · unfold State.goodTurn
        dsimp only
        rw [State.retireFinished, stream_retireHeads_of_ne _ h, stream_setStream_of_ne _ _ h]
        split
        · rw [present_stream]
        · rfl
      · unfold State.underrunTurn
        dsimp only
        split
        · rw [stream_setStream_of_ne _ _ h]
        · rw [present_stream, stream_setStream_of_ne _ _ h]
    · rfl

/-- A resolution's turn changes an in-stream's elements and run alone (R123, R124). -/
theorem stream_inStreamTurn (b : Bank) (f : FrameNo) (r : Resolution) (ws : List Word) (s : State) (i j : StreamId) :
    (inStreamTurn b f r ws s i).stream j
      = { s.stream j with
          elements := ((inStreamTurn b f r ws s i).stream j).elements
          runFlag := ((inStreamTurn b f r ws s i).stream j).runFlag
          runCount := ((inStreamTurn b f r ws s i).stream j).runCount } := by
  unfold inStreamTurn
  dsimp only
  split
  · rfl
  · split
    · rfl
    · split
      · unfold State.takeInTurn
        dsimp only
        split
        · rw [stream_setStream]
          split
          · next h => subst h; rfl
          · split
            · rw [present_stream]
            · rfl
        · split
          · rw [stream_setStream]
            split
            · next h => subst h; rfl
            · rfl
          · rw [present_stream, stream_setStream]
            split
            · next h => subst h; rfl
            · rfl
      · rfl

/-- A turn of one stream leaves every other as it is. -/
theorem stream_inStreamTurn_of_ne (b : Bank) (f : FrameNo) (r : Resolution) (ws : List Word) (s : State)
    {i j : StreamId} (h : j ≠ i) : (inStreamTurn b f r ws s i).stream j = s.stream j := by
  unfold inStreamTurn
  dsimp only
  split
  · rfl
  · split
    · rfl
    · split
      · unfold State.takeInTurn
        dsimp only
        split
        · rw [stream_setStream_of_ne _ _ h]
          split
          · rw [present_stream]
          · rfl
        · split
          · rw [stream_setStream_of_ne _ _ h]
          · rw [present_stream, stream_setStream_of_ne _ _ h]
      · rfl

/-- A swap moves a stream's state, and clears an out-stream's run when it makes the stream LIVE; it changes no other field
(R39). -/
theorem stream_swap (s : State) (i : StreamId) : s.swap.stream i = moveAtSwap s.sched.pending i (s.stream i) := by
  simp [State.swap, State.stream]

/-- The move of one stream at a swap, in the words of the claims (R39). -/
theorem moveAtSwap_eq_moved (active : Bank) (i : StreamId) (c : Stream) :
    moveAtSwap active i c = c.moved (active.names i) := by
  obtain ⟨state, shape⟩ := c
  cases state <;> try rfl
  by_cases h : active.names i
  · cases shape with
    | none => simp [moveAtSwap, Stream.moved, Stream.isOut, h]
    | some sh => cases hk : sh.kind <;> simp [moveAtSwap, Stream.moved, Stream.isOut, StreamKind.lane, h, hk]
  · simp [moveAtSwap, Stream.moved, h]

/-- All that the armed swap of an event does to the schedule and the streams; without one, nothing (R77, R78, R79). -/
theorem performArmedSwap_moves (s : State) (first : Option FrameNo) :
    (s.performArmedSwap first).sched = (if s.sched.swapArmed then { s.scheduleSwapped with commit := none } else s.sched)
    ∧ ∀ i : StreamId,
        (s.performArmedSwap first).stream i =
          if s.sched.swapArmed then (s.stream i).moved (s.sched.pending.names i) else s.stream i := by
  have move (i : StreamId) : s.swap.stream i = (s.stream i).moved (s.sched.pending.names i) := by
    rw [stream_swap, moveAtSwap_eq_moved]
  unfold State.performArmedSwap
  by_cases h : s.sched.swapArmed = true
  · simp only [h, if_true, ← move]
    cases hc : s.sched.commit with
    | none => exact ⟨by simp [State.swap, State.scheduleSwapped, State.windowHolds, hc], fun _ => rfl⟩
    | some c =>
      refine ⟨by simp [State.complete, State.swap, State.scheduleSwapped, State.windowHolds], fun i => ?_⟩
      simp [State.complete, State.stream]
  · simp only [h, if_false, Bool.false_eq_true]
    exact ⟨trivial, fun _ => trivial⟩

end Sys2Proof.Machine
end

