-- ==== Sys2Proof/Laws/Answers.lean ====
section
/-!
SUPPORT. What an answer of the host bus and the taking of a record can do, said once.
-/
namespace Sys2Proof.Machine

/-- An answer to no request in flight changes nothing, an answer in RESETTING is discarded, and any other goes to its block, which
sees the request and the state in which it is in flight no longer (R182, R188). -/
theorem onAnswer_cases (s : State) (tag : Requester) (k : Request → State → State) :
    (s.inFlight tag = false ∧ s.onAnswer tag k = .next s)
    ∨ (s.inFlight tag = true ∧ s.host.engine = .resetting ∧ s.onAnswer tag k = .next (s.discardInResetting tag))
    ∨ ∃ r ∈ s.port, r.requester = tag ∧ s.host.engine ≠ .resetting ∧ s.onAnswer tag k = .next (k r (s.answered tag)) := by
  unfold State.onAnswer State.inFlight
  cases h : s.request tag with
  | none => exact .inl ⟨rfl, rfl⟩
  | some r =>
    have hr := List.find?_some h
    have hm := List.mem_of_find?_eq_some h
    by_cases e : s.host.engine = .resetting
    · exact .inr (.inl ⟨rfl, e, by simp [e]⟩)
    · exact .inr (.inr ⟨r, hm, by simpa using hr, e, by simp [e]⟩)

/-- An answer to a request in flight, out of RESETTING. -/
theorem onAnswer_of_inFlight {s : State} {tag : Requester} (h : s.inFlight tag = true) (e : s.host.engine ≠ .resetting)
    (k : Request → State → State) : ∃ r ∈ s.port, r.requester = tag ∧ s.onAnswer tag k = .next (k r (s.answered tag)) := by
  rcases onAnswer_cases s tag k with ⟨h', -⟩ | ⟨-, e', -⟩ | ⟨r, hr, ht, -, hk⟩
  · simp [h] at h'
  · exact absurd e' e
  · exact ⟨r, hr, ht, hk⟩

/-- A record whose read completes in READY is taken, its owner answers, and the processor looks for the next (R153 to R155). -/
theorem takeCommand_of_taking {s : State} (h : s.Taking) (code : BitVec 8) (r : CommandRecord)
    (owner : Command → State → State) :
    s.takeCommand code r owner = .next (owner (s.taken code r) s.afterTaking).lookForCommand := by
  obtain ⟨he, hp, hf⟩ := h
  obtain ⟨q, -, -, hk⟩ := onAnswer_of_inFlight hf (by simp [he])
    fun _ t =>
      if t.host.engine = .ready ∧ t.proc.state = .reading then
        (owner (t.commandOf code r) t.advanceConsumer).lookForCommand
      else t
  rw [State.takeCommand, hk]
  simp [he, hp]
  rfl

/-- What a taken record answers is its owner's work, or a discard that leaves everything but the Port, and in RESETTING the passage to
OFF; without a command read in flight it is nothing. -/
theorem takeCommand_cases {s t : State} {code : BitVec 8} {r : CommandRecord} {owner : Command → State → State}
    (h : s.takeCommand code r owner = .next t) :
    (s.Taking ∧ t = (owner (s.taken code r) s.afterTaking).lookForCommand)
    ∨ (s.host.engine = .resetting ∧ t = s.discardInResetting .commandProcessor)
    ∨ (s.inFlight .commandProcessor = false ∧ t = s)
    ∨ (¬ (s.host.engine = .ready ∧ s.proc.state = .reading) ∧ s.host.engine ≠ .resetting
      ∧ t = s.answered .commandProcessor) := by
  unfold State.takeCommand at h
  rcases onAnswer_cases s .commandProcessor (fun _ t =>
      if t.host.engine = .ready ∧ t.proc.state = .reading then
        (owner (t.commandOf code r) t.advanceConsumer).lookForCommand
      else t) with
    ⟨f, h'⟩ | ⟨-, e, h'⟩ | ⟨q, hq, ht, e, h'⟩
  · rw [h'] at h; cases h; exact .inr (.inr (.inl ⟨f, rfl⟩))
  · rw [h'] at h; cases h; exact .inr (.inl ⟨e, rfl⟩)
  · rw [h'] at h
    cases h
    by_cases hr : s.host.engine = .ready ∧ s.proc.state = .reading
    · exact .inl ⟨⟨hr.1, hr.2, (inFlight_iff _ _).2 ⟨q, hq, ht⟩⟩, if_pos hr⟩
    · exact .inr (.inr (.inr ⟨hr, e, if_neg hr⟩))

/-- The discard of an answer in RESETTING leaves the engine in RESETTING, or takes it to OFF when it was the last (R188). -/
theorem discardInResetting_cases (s : State) (tag : Requester) :
    (s.portWithout tag = [] ∧ s.discardInResetting tag = (s.answered tag).enterOff)
    ∨ (s.portWithout tag ≠ [] ∧ s.discardInResetting tag = s.answered tag) := by
  unfold State.discardInResetting State.offWhenQuiet
  rw [answered_port]
  split
  · next h => exact .inl ⟨h, rfl⟩
  · next h => exact .inr ⟨h, rfl⟩

end Sys2Proof.Machine
end

