-- ==== Sys2Proof/Laws/Banks.lean ====
section
/-!
SUPPORT. Banks in their canonical form: in rising order of `placementKey`, with none repeated. Every change keeps the form, so
that equal banks are equal lists; and what adding and removing a placement do to membership.
-/
namespace Sys2Proof.Machine

/-- The canonical form of a bank. -/
abbrev Bank.wf (b : Bank) : Prop := b.Pairwise fun p q => placementKey p < placementKey q

/-- A placement is determined by its key. -/
theorem placementKey_injective {p q : Placement} (h : placementKey p = placementKey q) : p = q := by
  obtain ⟨l, s, i, c⟩ := p
  obtain ⟨l', s', i', c'⟩ := q
  have := s.isLt; have := s'.isLt; have := i.isLt; have := i'.isLt; have := c.isLt; have := c'.isLt
  cases l <;> cases l' <;> simp only [placementKey] at h <;>
    simp only [Placement.mk.injEq, true_and, reduceCtorEq, false_and, Fin.ext_iff] <;> omega

/-- What a bank holds after a placement is added. -/
theorem mem_insert {p q : Placement} (b : Bank) : q ∈ Bank.insert p b ↔ q = p ∨ q ∈ b := by
  induction b with
  | nil => simp [Bank.insert]
  | cons x rest ih =>
    unfold Bank.insert
    split
    · simp
    · split
      · next h =>
        have := placementKey_injective h
        subst this
        simp
      · simp only [List.mem_cons, ih]
        tauto

/-- Adding a placement keeps the form. -/
theorem insert_wf {b : Bank} (h : b.wf) (p : Placement) : (Bank.insert p b).wf := by
  induction b with
  | nil => simp [Bank.insert]
  | cons x rest ih =>
    obtain ⟨hx, hr⟩ := List.pairwise_cons.1 h
    unfold Bank.insert
    split
    · next hlt =>
      refine List.pairwise_cons.2 ⟨fun q hq => ?_, h⟩
      rcases List.mem_cons.1 hq with rfl | hq
      · exact hlt
      · exact hlt.trans (hx q hq)
    · split
      · exact h
      · next h1 h2 =>
        refine List.pairwise_cons.2 ⟨fun q hq => ?_, ih hr⟩
        rcases (mem_insert rest).1 hq with rfl | hq
        · omega
        · exact hx q hq

/-- Removing a placement keeps the form. -/
theorem remove_wf {b : Bank} (h : b.wf) (p : Placement) : (b.remove p).wf := h.filter _

/-- What a bank holds after a placement is removed. -/
theorem mem_remove {p q : Placement} (b : Bank) : q ∈ b.remove p ↔ q ∈ b ∧ q ≠ p := by
  simp [Bank.remove]

/-- A bank names the streams of its placements. -/
theorem names_iff (b : Bank) (i : StreamId) : b.names i = true ↔ ∃ p ∈ b, p.stream = i := by
  simp [Bank.names]

end Sys2Proof.Machine
end

