-- ==== Sys2Proof/Laws/Places.lean ====
section
/-!
SUPPORT. What the handing on of a freed place can do, said once (R169).
-/
namespace Sys2Proof.Machine

/-- A place can be handed on in READY, with a place not in use. -/
theorem placeToHand_iff (s : State) : s.placeToHand = true ↔ s.host.engine = .ready ∧ s.placesInUse < 32 := by
  simp [State.placeToHand, State.freePlace]

/-- A place that is handed on serves the first claim that stands; with none, or with no place, nothing changes (R169). -/
theorem handOn_cases (s : State) :
    (¬ (s.host.engine = .ready ∧ s.placesInUse < 32) ∧ s.handOn = s)
    ∨ (s.host.engine = .ready ∧ s.placesInUse < 32
      ∧ ((0 < s.comp.lossCount ∧ s.handOn = s.enterEventLoss)
        ∨ (s.comp.lossCount = 0 ∧ s.proc.state = .waitingPlace ∧ s.handOn = s.readCommand)
        ∨ (s.comp.lossCount = 0 ∧ s.proc.state ≠ .waitingPlace
          ∧ ((∃ i, s.waitingStream = some i ∧ s.handOn = s.serveRetirement i)
            ∨ (s.waitingStream = none ∧ s.handOn = s))))) := by
  unfold State.handOn
  by_cases h : s.host.engine = .ready ∧ s.placesInUse < 32
  · rw [if_pos ((placeToHand_iff s).2 h)]
    refine .inr ⟨h.1, h.2, ?_⟩
    by_cases l : 0 < s.comp.lossCount
    · exact .inl ⟨l, if_pos l⟩
    · rw [if_neg l]
      have l0 : s.comp.lossCount = 0 := by omega
      by_cases p : s.proc.state = .waitingPlace
      · exact .inr (.inl ⟨l0, p, if_pos p⟩)
      · rw [if_neg p]
        refine .inr (.inr ⟨l0, p, ?_⟩)
        cases s.waitingStream with
        | none => exact .inr ⟨rfl, rfl⟩
        | some i => exact .inl ⟨i, rfl, rfl⟩
  · exact .inl ⟨h, if_neg fun k => h ((placeToHand_iff s).1 k)⟩

/-- The read of a command record, with its place reserved (R153, R154). -/
theorem readCommand_eq {s : State} {ring : Ring} (h : s.proc.ring = some ring) : s.readCommand = s.commandServed ring := by
  simp [State.readCommand, h]
  rfl

/-- A look for a command reserves and reads, waits, or changes nothing (R153). -/
theorem lookForCommand_eq_looked (s : State) : s.lookForCommand = s.looked := by
  unfold State.lookForCommand State.looked
  cases h : s.proc.ring with
  | none => simp
  | some ring => simp [State.beginCommand, State.freePlace, readCommand_eq h]

/-- Only the Port, the processor and the reservations can differ after a look (R153). -/
theorem looked_frame (s : State) :
    { s.looked with port := s.port, proc := s.proc, comp := s.comp } = s
    ∧ { s.looked.comp with reservations := s.comp.reservations } = s.comp
    ∧ s.looked.proc = { s.proc with state := s.looked.proc.state } := by
  unfold State.looked State.commandServed
  split
  · exact ⟨rfl, rfl, rfl⟩
  · split
    · split <;> exact ⟨rfl, rfl, rfl⟩
    · exact ⟨rfl, rfl, rfl⟩

/-- After a look an IDLE processor of a READY engine with its ring has no record posted (R153). -/
theorem posted_of_looked (s : State) (hr : s.proc.ring.isSome = true) : PostedInv s.looked := by
  obtain ⟨ring, h⟩ := Option.isSome_iff_exists.mp hr
  intro he
  unfold State.looked at he ⊢
  simp only [h] at he ⊢
  split
  · split <;> simp [State.commandServed, h]
  · rename_i hn
    simp only [h]
    rw [if_neg hn] at he
    exact ⟨rfl, fun hi => Decidable.byContradiction fun hc => hn ⟨he, hi, hc⟩⟩

/-- No stream is named for a freed place exactly when no retirement waits (R169). -/
theorem waitingStream_eq_none_iff (s : State) :
    s.waitingStream = none ↔ ∀ i : StreamId, (s.stream i).retirementWaiting = false := by
  simp [State.waitingStream, allStreams]

end Sys2Proof.Machine
end

