-- ==== Sys2Proof/Laws/Records.lean ====
section
/-!
SUPPORT. Words as they stand in host memory (R191): how many bytes they take, which byte stands where, that the bytes of words
make the same words again, and what placing a field above others does to a word's value.
-/
namespace Sys2Proof.Machine

@[simp] theorem recordBytes_nil : recordBytes [] = [] := rfl

/-- A word takes four bytes, the least significant first. -/
@[simp] theorem recordBytes_cons (w : Word) (ws : List Word) :
    recordBytes (w :: ws) =
      BitVec.ofNat 8 (field w 0 8) :: BitVec.ofNat 8 (field w 8 8) :: BitVec.ofNat 8 (field w 16 8)
        :: BitVec.ofNat 8 (field w 24 8) :: recordBytes ws := rfl

/-- Words take four bytes each. -/
@[simp] theorem recordBytes_length (ws : List Word) : (recordBytes ws).length = 4 * ws.length := by
  induction ws with
  | nil => rfl
  | cons w ws ih => rw [recordBytes_cons]; simp only [List.length_cons, ih]; omega

/-- A run of addresses has the length asked for. -/
@[simp] theorem byteAddresses_length (a : Addr) (n : Nat) : (byteAddresses a n).length = n := by simp [byteAddresses]

/-- The four bytes of a word make that word. -/
theorem wordOfBytes_field (w : Word) :
    wordOfBytes (BitVec.ofNat 8 (field w 0 8)) (BitVec.ofNat 8 (field w 8 8)) (BitVec.ofNat 8 (field w 16 8))
      (BitVec.ofNat 8 (field w 24 8)) = w := by
  apply BitVec.eq_of_getLsbD_eq
  intro k hk
  simp only [wordOfBytes, place, field, BitVec.getLsbD_or, BitVec.getLsbD_ofNat, BitVec.toNat_ofNat, Nat.testBit_shiftLeft,
    Nat.testBit_mod_two_pow, Nat.testBit_shiftRight]
  have h : k < 8 ∨ (8 ≤ k ∧ k < 16) ∨ (16 ≤ k ∧ k < 24) ∨ (24 ≤ k ∧ k < 32) := by omega
  rcases h with h | h | h | h
  · simp [BitVec.getLsbD, show ¬ 8 ≤ k by omega, show ¬ 16 ≤ k by omega, show ¬ 24 ≤ k by omega, h, hk]
  · simp [BitVec.getLsbD, show ¬ k < 8 by omega, show 8 ≤ k by omega, show ¬ 16 ≤ k by omega, show ¬ 24 ≤ k by omega,
      show k - 8 < 8 by omega, hk, show 8 + (k - 8) = k by omega]
  · simp [BitVec.getLsbD, show ¬ k < 8 by omega, show ¬ k - 8 < 8 by omega, show 16 ≤ k by omega, show ¬ 24 ≤ k by omega,
      show k - 16 < 8 by omega, hk, show 16 + (k - 16) = k by omega]
  · simp [BitVec.getLsbD, show ¬ k < 8 by omega, show ¬ k - 8 < 8 by omega, show ¬ k - 16 < 8 by omega, show 24 ≤ k by omega,
      show k - 24 < 8 by omega, hk, show 24 + (k - 24) = k by omega]

/-- The bytes of words make the same words. -/
theorem recordWords_recordBytes (ws : List Word) : recordWords (recordBytes ws) = ws := by
  induction ws with
  | nil => rfl
  | cons w ws ih => rw [recordBytes_cons, recordWords, ih, wordOfBytes_field]

/-- A field placed above a word's bits adds its value. -/
theorem toNat_or_place {x : Word} {lo n : Nat} (hx : x.toNat < 2 ^ lo) (hn : n * 2 ^ lo < 2 ^ 32) :
    (x ||| place lo n).toNat = x.toNat + 2 ^ lo * n := by
  have h : (place lo n).toNat = 2 ^ lo * n := by
    rw [place, BitVec.toNat_ofNat, Nat.shiftLeft_eq, Nat.mod_eq_of_lt hn, Nat.mul_comm]
  rw [BitVec.toNat_or, h, Nat.or_comm, ← Nat.two_pow_add_eq_or_of_lt hx, Nat.add_comm]

/-- A field placed at the bottom of a word is the word. -/
theorem toNat_place_zero {n : Nat} (h : n < 2 ^ 32) : (place 0 n).toNat = n := by
  simpa [place] using h

end Sys2Proof.Machine
end

