-- ==== Sys2Proof/Laws/Stops.lean ====
section
/-!
SUPPORT. What the entry to STOPPED and the passage from STOPPING do to the link, said once.
-/
namespace Sys2Proof.Machine

variable (s : State)

/-- A START that completes is outstanding no longer; nothing else of the link changes (R32). -/
@[simp] theorem completeStart_link (a : CommandStatus) : (s.completeStart a).link = { s.link with start := none } := by
  unfold State.completeStart
  split
  · next h => rw [← h]
  · rfl

/-- A STOP that completes is outstanding no longer; nothing else of the link changes (R32). -/
@[simp] theorem completeStop_link : s.completeStop.link = { s.link with stop := none } := by
  unfold State.completeStop
  split
  · next h => rw [← h]
  · rfl

/-- The link after an entry to STOPPED: no timeout, no command outstanding, and the rest as it stood (R32). -/
@[simp] theorem enterStopped_link (a : CommandStatus) :
    (s.enterStopped a).link = { s.link with state := .stopped, timeout := none, start := none, stop := none } := by
  unfold State.enterStopped
  dsimp only
  rw [presentLinkDown_frame, completeStop_link, State.markersOff]
  dsimp only
  rw [(performArmedSwap_keeps _ none).2.2.2.2.2.1, completeStart_link]

/-- The link passes to STOPPED when it may, and stays as it is otherwise (R32). -/
theorem stopWhenDone_cases :
    (s.link.state = .stopping ∧ s.ret.window = [] ∧ s.link.transmitting = false
      ∧ s.stopWhenDone = s.enterStopped .cancelled)
    ∨ (¬ (s.link.state = .stopping ∧ s.ret.window = [] ∧ s.link.transmitting = false) ∧ s.stopWhenDone = s) := by
  unfold State.stopWhenDone State.mayStop
  by_cases h : s.link.state = .stopping ∧ s.ret.window = [] ∧ s.link.transmitting = false
  · exact .inl ⟨h.1, h.2.1, h.2.2, by simp [h.1, h.2.1, h.2.2]⟩
  · refine .inr ⟨h, if_neg ?_⟩
    simp only [Bool.and_eq_true, decide_eq_true_eq, List.isEmpty_iff, Bool.not_eq_true']
    exact fun k => h ⟨k.1.1, k.1.2, k.2⟩

end Sys2Proof.Machine
end

