-- ==== Sys2Proof/WellFormed.lean ====
section
/-!
DEFINITION. What a command must satisfy to be one of its row: the operand ranges that the operand's type does not already
give. A command that fails this is not an event the row names.
-/
namespace Sys2Proof

/-- The command codes of the table in 12.4. -/
def commandCodes : List (BitVec 8) :=
  [0x01, 0x02, 0x03, 0x10, 0x11, 0x12, 0x13, 0x20, 0x21, 0x22, 0x30, 0x40, 0x41]

/-- Whether a register write belongs to the row REGISTER_WRITE: a write to the engine control word must carry neither action,
and a full write to the notify word is a notify, with rows of its own (R179, R192). A partial write is always one. -/
def registerWriteWellFormed (reg : Register) (full : Bool) (value : Word) : Bool :=
  match reg with
  | .control => !full || (!value.getLsbD 0 && !value.getLsbD 1)
  | .notify => !full
  | .baseLow => true
  | .baseHigh => true
  | .status => true

/-- A read of host memory for a change list or for samples covers 1 to 16 words (R69, R103). -/
def readLengthWellFormed (words : List Word) : Bool :=
  decide (1 ≤ words.length ∧ words.length ≤ 16)

/-- The operand ranges of each row. -/
def WellFormed : Instr → Bool
  | .enable => true
  | .softReset => true
  | .registerWrite reg full value => registerWriteWellFormed reg full value
  | .hardReset _ _ => true
  | .notifyCommandRing _ => true
  | .acknowledge _ => true
  | .notifyBlockRing _ _ => true
  | .notifyNoRing selector _ => decide (33 < selector.toNat)
  | .controlAreaLoaded _ => true
  | .controlReadError => true
  | .commandReadIssue => true
  | .commandReadError => true
  | .unknownCommand code _ => !commandCodes.contains code
  | .linkConfigure _ => true
  | .linkStart _ => true
  | .linkStop _ => true
  | .openStream _ => true
  | .closeStream _ => true
  | .restartStream _ => true
  | .queryStream _ => true
  | .loadSchedule _ => true
  | .commitSchedule _ => true
  | .cancelCommit _ => true
  | .setSense _ => true
  | .postEvent _ => true
  | .injectFault _ => true
  | .heldLoadPerformed => true
  | .changeListReadDone entries => readLengthWellFormed entries
  | .changeListReadError => true
  | .snapshotWriteDone _ => true
  | .frameTimerExpiry => true
  | .transmissionEnd => true
  | .returnArrival words ragged => !words.isEmpty || ragged
  | .loopedReturn => true
  | .deadlineExpiry => true
  | .entryToStopped => true
  | .timeoutExpiry => true
  | .senseLineEdge _ _ _ => true
  | .triggerEdgeReport => true
  | .descriptorReadIssue _ => true
  | .descriptorReadDone _ _ => true
  | .descriptorReadError _ => true
  | .dataReadIssue _ => true
  | .dataReadDone _ samples => readLengthWellFormed samples
  | .dataReadError _ => true
  | .dataWriteIssue _ => true
  | .dataWriteDone _ => true
  | .dataWriteError _ => true
  | .drainFinished _ => true
  | .endOfClose _ => true
  | .endOfRestart _ => true
  | .ringWriteIssue => true
  | .ringWriteDone => true
  | .eventLoss => true
  | .waitingCommandServed => true
  | .waitingRetirementServed => true
  | .ringWriteError => true
  | .holdoffExpiry => true
  | .answerInResetting _ => true
  | .resetPinReleased => true

end Sys2Proof
end

