-- ==== Sys2Proof/Tests/Slice0.lean ====
section
/-!
SUPPORT. Tests of the model and witnesses for the statements. `test_…` checks one step on a small state against a value worked out
from the manual; `smoke_…` gives each check of `WellFormed` a term that it refuses; `witness_…` shows states and operands that meet
the hypotheses of the statement it is named after, clause by clause, at the values where clauses meet.
-/
open Sys2Proof Sys2Proof.Machine

namespace Sys2Proof.Tests

set_option Elab.async false
set_option maxRecDepth 200000

/-! ## Small states -/

/-- The next state, where there is one. -/
def next? (c : Instr) (s : State) : Option State :=
  match exec c s with
  | .next t => some t
  | .fault _ => none
  | .refused _ => none

/-- READY after ENABLE: rings of 8 records, threshold 2, holdoff 50 µs. -/
def ready : State :=
  { State.reset with
    host.engine := .ready
    proc.ring := some { base := 0x1000, size := 8 }
    comp.config := some { base := 0x2000, size := 8, threshold := 2, holdoff := 50 } }

/-- READY with the read of command record 0 in flight. -/
def taking : State :=
  { ready with
    proc.producer := 1
    proc.state := .reading
    comp.reservations := 1
    port := [{ requester := .commandProcessor, address := 0x1000, transfer := .read 8 }] }

/-- A record with tag 7 and every word 0. -/
def blank : CommandRecord := { tag := 7, w1 := 0, w2 := 0, w3 := 0, w4 := 0, w5 := 0, w6 := 0, w7 := 0 }

/-- The command that record is, under a code. -/
def cmd (code : BitVec 8) : Command := { code := code, ringIndex := 0, tag := 7 }

/-- A link configuration: period 100 µs, fault threshold 3, idle fill word 9. -/
def config (mode : LoopMode) : LinkConfig := { period := 100, mode := mode, threshold := 3, idleFill := 9 }

/-- A configured link in the state given. -/
def linkIn (state : LinkState) (mode : LoopMode) : Link := { Link.reset with state := state, config := some (config mode) }

/-- READY with the link RUNNING in frame 5, its transmission over. -/
def running : State :=
  { ready with
    link := { linkIn .running .external with frame := 5, frameTimer := true, runGeneration := some 0, outFrame := some [] } }

/-- The same with frame 5 in the window. -/
def awaiting : State := { running with ret.window := [{ frame := 5, generation := 0, deadline := 200 }] }

/-- An out-stream shape: two channels, period 1. -/
def outShape (policy : UnderrunPolicy) : Shape :=
  { kind := .outStream policy, channels := 2, period := 1, phase := 0, fillWord := 0xF, depth := 8, ringBase := 0x3000, ringSize := 4 }

/-- A one-channel in-stream shape, period 1. -/
def inShape (mode : TagMode) : Shape :=
  { kind := .inStream mode, channels := 1, period := 1, phase := 0, fillWord := 0xF, depth := 8, ringBase := 0x4000, ringSize := 4 }

/-- A stream of the shape and state given. -/
def streamIn (state : StreamState) (sh : Shape) : Stream :=
  { Stream.openAs sh with state := state }

/-- A state with stream 0 as given and its depth out of the pool. -/
def withStream (s : State) (c : Stream) : State := { s with streams := s.streams.set 0 c, freePool := 504 }

/-- The placements of an out-stream 0 of two channels on slots 0 and 1. -/
def outBank : Bank :=
  [{ lane := .outLane, slot := 0, stream := 0, channel := 0 }, { lane := .outLane, slot := 1, stream := 0, channel := 1 }]

/-- The placement of an in-stream 0 of one channel on slot 0. -/
def inBank : Bank := [{ lane := .inLane, slot := 0, stream := 0, channel := 0 }]

/-- A sample that ends no block. -/
def sample (v : Word) : Sample := { value := v, blockEnd := false }

/-- RUNNING with stream 0 a LIVE out-stream that stages the samples given. -/
def outLive (policy : UnderrunPolicy) (samples : List Sample) : State :=
  { withStream running { streamIn .live (outShape policy) with samples := samples } with sched.active := outBank }

/-- A list entry: four elements at ring index 0, REPORT set. -/
def entry : Entry :=
  { ringIndex := 0, buffer := 0x8000, count := 4, report := true, cookie := 0xC0, done := 0, firstFrame := none,
    lastFrame := none, fresh := 0, stale := 0, damaged := 0, missing := 0, finished := none }

/-- An element that carries a value in frame 5. -/
def element (v : Word) : Element := { value := v, channel := 0, condition := .fresh, frame := 5 }

/-- RUNNING, frame 5 awaited, with stream 0 a LIVE in-stream that stages the elements given. -/
def inLive (mode : TagMode) (elements : List Element) : State :=
  { withStream awaiting { streamIn .live (inShape mode) with elements := elements } with sched.active := inBank }

/-- The holding list filled with reservations, so that no place is free. -/
def fullUp (s : State) : State := { s with comp.holding := List.replicate 31 (.event (.eventLoss 1)), comp.reservations := 1 }

/-! ## Well-formedness: a term that each check refuses -/

theorem smoke_control_write_carries_enable : WellFormed (.registerWrite .control true 1) = false := by decide
theorem smoke_control_write_carries_reset : WellFormed (.registerWrite .control true 2) = false := by decide
theorem smoke_control_write_without_action : WellFormed (.registerWrite .control true 4) = true := by decide
theorem smoke_full_notify_is_no_register_write : WellFormed (.registerWrite .notify true 0) = false := by decide
theorem smoke_selector_33_names_a_ring : WellFormed (.notifyNoRing 33 0) = false := by decide
theorem smoke_selector_34_names_none : WellFormed (.notifyNoRing 34 0) = true := by decide
theorem smoke_known_code_is_not_unknown : WellFormed (.unknownCommand 0x41 blank) = false := by decide
theorem smoke_empty_change_read : WellFormed (.changeListReadDone []) = false := by decide
theorem smoke_change_read_above_16 : WellFormed (.changeListReadDone (List.replicate 17 0)) = false := by decide
theorem smoke_empty_data_read : WellFormed (.dataReadDone 0 []) = false := by decide
theorem smoke_data_read_above_16 : WellFormed (.dataReadDone 0 (List.replicate 17 0)) = false := by decide
theorem smoke_arrival_of_nothing : WellFormed (.returnArrival [] false) = false := by decide

/-! ## Words and records -/

/-- The published check value of the CRC with the parameters of R4 (CRC-32/BZIP2): the nine characters 123456789 give FC891918. -/
theorem test_crc_check_value :
    crcBits (wireBits 0x31323334 ++ wireBits 0x35363738 ++ (wireBits 0x39000000).take 8) = 0xFC891918 := by decide +kernel

/-- LINK CONFIGURE with tag 0x1234 (12.4): code in bits 7:0, tag in bits 31:16, bits 15:8 not examined. -/
theorem test_record_link_configure :
    decodeRecord #v[0x1234FF01, 80, 1, 3, 9, 0, 0, 0] =
      .linkConfigure { tag := 0x1234, w1 := 80, w2 := 1, w3 := 3, w4 := 9, w5 := 0, w6 := 0, w7 := 0 } := by decide

/-- Code 0x42 names no command (R155). -/
theorem test_record_unknown :
    decodeRecord #v[0x00070042, 0, 0, 0, 0, 0, 0, 0] = .unknownCommand 0x42 blank := by decide

/-- A notify word with selector 33 (bits 23:16) and value 5 is stream 31's (R180). -/
theorem test_notify_word_stream_31 : decodeHostWrite .notify 0x00210005 = .notifyBlockRing 31 5 := by decide

/-- A control word with both actions is RESET (R187). -/
theorem test_control_word_reset_first : decodeHostWrite .control 3 = .softReset := by decide

/-- The table gives no row any bits. -/
theorem test_no_row_has_bits : decodeTableWord 32 1 = none ∧ State.reset.withFetchWord 32 1 = State.reset := by decide +kernel

/-- A COMMAND_DONE of OPEN STREAM, NO_STAGING with 504 words free, pass mark 1 (R195). -/
theorem test_command_done_words :
    (Record.commandDone { code := 0x10, ringIndex := 2, tag := 0xABCD } .noStaging (.freePool 504)).words true =
      [0x00100081, 0xABCD0002, 5, 504, 0, 0, 0, 0] := by decide

/-- A SENSE_EDGE of line 3, falling, in frame 64 at 12 µs with 2 suppressed, pass mark 0 (R195). -/
theorem test_sense_edge_words :
    (Record.event (.senseEdge 3 .falling (some (64, 12)) 2)).words false =
      [0x00000903, 0x00010103, 64, 12, 2, 0, 0, 0] := by decide

/-- A DAMAGED element of channel 2 in frame 0x10005, TAGGED (R199). -/
theorem test_tagged_element_words :
    elementWords .tagged { value := 8, channel := 2, condition := .damaged, frame := 0x10005 } = [8, 0x02020005] := by decide

/-- Word k stands at byte offset 4k, its least significant byte at the lowest address (R191). -/
theorem test_words_in_memory :
    ({ requester := .completionUnit, address := 0x2000, transfer := .write [0x11223344, 5] } : Request).bytesWritten.take 5 =
      [(0x2000, 0x44), (0x2001, 0x33), (0x2002, 0x22), (0x2003, 0x11), (0x2004, 5)] := by decide +kernel

/-! ## The register window and the engine states -/

theorem test_enable_issues_control_read :
    (next? .enable { State.reset with host.baseLow := 0x40, host.baseHigh := 1 }).map (·.port) =
      some [{ requester := .hostWindow, address := 0x100000040, transfer := .read 8 }] := by decide +kernel
theorem test_enable_unaligned_base_faults :
    (next? .enable { State.reset with host.baseLow := 8 }).map (fun t => (t.host.engine, t.host.lastFault, t.port)) =
      some (.fault, .controlInvalid, []) := by decide +kernel
theorem test_soft_reset_at_once :
    (next? .softReset awaiting).map (fun t => (t.host.engine, t.link.state, t.ret.window)) =
      some (.off, .unconfigured, []) := by decide +kernel
theorem test_soft_reset_waits_for_answers :
    (next? .softReset taking).map (fun t => (t.host.engine, t.port.length)) = some (.resetting, 1) := by decide +kernel
theorem test_register_write_keeps_base :
    (next? (.registerWrite .baseHigh true 0xABC) ready).map (·.host.baseHigh) = some 0xABC := by decide +kernel
theorem test_partial_write_ignored : next? (.registerWrite .baseLow false 8) ready = some ready := by decide +kernel
theorem test_hard_reset_takes_levels :
    (next? (.hardReset .pin 0x80) running).map (fun t => (t.lines.sense[7].level, t.lines.sense[0].level, t.host.resetHeld)) =
      some (true, false, true) := by decide +kernel
theorem test_reset_pin_released :
    (next? .resetPinReleased { State.reset with host.resetHeld := true }).map (·.host.resetHeld) = some false := by
  decide +kernel
/-- Threshold 0 is out of range, threshold 1 is not (11.4). -/
theorem test_control_area_threshold :
    let s := { State.reset with
      host.engine := .loading, port := [{ requester := .hostWindow, address := 0, transfer := .read 8 }] }
    ((next? (.controlAreaLoaded #v[0, 0, 32, 0, 4, 4096, 0, 0]) s).map (·.host.engine),
      (next? (.controlAreaLoaded #v[0, 0, 32, 0, 4, 4096, 0x00020001, 0]) s).map (fun t => (t.host.engine, t.comp.config))) =
      (some .fault, some (.ready, some { base := 32, size := 4096, threshold := 1, holdoff := 2 })) := by decide +kernel
theorem test_control_read_error :
    (next? .controlReadError { State.reset with
      host.engine := .loading, port := [{ requester := .hostWindow, address := 0, transfer := .read 8 }] }).map
        (fun t => (t.host.lastFault, t.interruptLine, t.statusWord)) = some (.controlRead, true, 0x00011003) := by
  decide +kernel
theorem test_answer_in_resetting_brings_off :
    (next? (.answerInResetting .commandProcessor) { taking with host.engine := .resetting }).map
      (fun t => (t.host.engine, t.comp.reservations)) = some (.off, 0) := by decide +kernel
/-- READY with the link RUNNING and the line asserted by the threshold (12.2). -/
theorem test_status_word :
    ({ running with comp.unacknowledged := 2 } : State).statusWord = 0x00010032 := by decide +kernel

/-! ## Notifies -/

/-- The notify itself looks: a place is free, so the read of record 0 is issued in the same step (R152, R153). -/
theorem test_command_notify :
    (next? (.notifyCommandRing 7) ready).map (fun t => (t.proc.producer, t.proc.state, t.port)) =
      some (7, .reading, [{ requester := .commandProcessor, address := 0x1000, transfer := .read 8 }]) := by decide +kernel
/-- With no place free the same notify leaves the processor waiting for one (R153, R157). -/
theorem test_command_notify_waits :
    (next? (.notifyCommandRing 7) (fullUp ready)).map (·.proc.state) = some .waitingPlace := by decide +kernel
theorem test_command_notify_stray :
    (next? (.notifyCommandRing 8) ready).map (fun t => (t.proc.producer, t.comp.holding)) =
      some (0, [.event (.strayNotify 0 8)]) := by decide +kernel
/-- From index 6 with 4 unacknowledged, a notify of 1 advances by 3 across the wrap and restarts an EXPIRED timer (R173, R175). -/
theorem test_acknowledge_across_wrap :
    (next? (.acknowledge 1)
      { ready with comp.acknowledge := 6, comp.produce := 2, comp.unacknowledged := 4, comp.timer := .expired }).map
        (fun t => (t.comp.acknowledge, t.comp.unacknowledged, t.comp.timer)) = some (1, 1, .running) := by decide +kernel
theorem test_acknowledge_too_far :
    (next? (.acknowledge 3) { ready with comp.produce := 2, comp.unacknowledged := 2 }).map
      (fun t => (t.comp.acknowledge, t.comp.holding)) = some (0, [.event (.strayNotify 1 3)]) := by decide +kernel
/-- With one entry in the list at retire index 3 and a read in flight, producer 0 would withdraw the one being read; 1 not. -/
theorem test_block_notify_withdraws :
    let c := { streamIn .opened (outShape .fill) with
      retire := 3, fetch := 0, producer := 1, list := [{ entry with ringIndex := 3 }], descriptorInFlight := true }
    ((next? (.notifyBlockRing 0 0) (withStream ready c)).map (·.comp.holding),
      (next? (.notifyBlockRing 0 1) (withStream ready c)).map (·.comp.holding)) =
      (some [.event (.strayNotify 2 0)], some []) := by decide +kernel
theorem test_notify_no_ring :
    (next? (.notifyNoRing 34 5) ready).map (·.comp.holding) = some [.event (.strayNotify 34 5)] := by decide +kernel

/-! ## The command ring -/

theorem test_command_read_issue :
    (next? .commandReadIssue { ready with proc.producer := 3, proc.consumer := 2 }).map
      (fun t => (t.port, t.comp.reservations)) =
      some ([{ requester := .commandProcessor, address := 0x1040, transfer := .read 8 }], 1) := by decide +kernel
theorem test_command_read_waits :
    (next? .commandReadIssue (fullUp { ready with proc.producer := 1 })).map (·.proc.state) = some .waitingPlace := by
  decide +kernel
theorem test_command_read_error :
    (next? .commandReadError taking).map (fun t => (t.host.lastFault, t.proc.consumer)) = some (.commandRead, 0) := by
  decide +kernel
theorem test_unknown_command :
    (next? (.unknownCommand 0x42 blank) taking).map (fun t => (t.comp.holding, t.proc.consumer)) =
      some ([.commandDone (cmd 0x42) .unknownCommand .none], 1) := by decide +kernel
/-- SET SENSE ends with a record posted behind it and the list full of its own record: WAITING_PLACE in the same step (9.8). -/
theorem test_command_end_looks :
    (next? (.setSense blank) (fullUp { taking with proc.producer := 2 })).map
      (fun t => (t.proc.consumer, t.proc.state, t.comp.holding.length)) = some (1, .waitingPlace, 32) := by decide +kernel
/-- The end of a held QUERY looks too, and its own freed reservation leaves a place for the next read (R153, R156). -/
theorem test_held_end_looks :
    (next? (.snapshotWriteDone false)
      { ready with
        proc := { ready.proc with state := .held (cmd 0x13), consumer := 1, producer := 2 }
        comp.reservations := 1
        port := [{ requester := .streamTable, address := 0, transfer := .write [] }] }).map (fun t => (t.proc.state, t.port)) =
      some (.reading, [{ requester := .commandProcessor, address := 0x1020, transfer := .read 8 }]) := by decide +kernel
theorem test_post_event_order :
    (next? (.postEvent { blank with w1 := 255, w2 := 6 }) taking).map (·.comp.holding) =
      some [.event (.hostPosted 255 6), .commandDone (cmd 0x40) .ok (.posted true)] := by decide +kernel
theorem test_inject_fault_arms :
    (next? (.injectFault { blank with w1 := 1 }) { taking with link := linkIn .running .external }).map
      (fun t => (t.link.dropReturn, t.link.corruptOut)) = some (true, false) := by decide +kernel

/-! ## The link -/

theorem test_link_configure_bounds :
    ((next? (.linkConfigure { blank with w1 := 80, w3 := 255 }) taking).map (·.link.state),
      (next? (.linkConfigure { blank with w1 := 79, w3 := 255 }) taking).map (·.link.state)) =
      (some .stopped, some .unconfigured) := by decide +kernel
/-- Line 7, falling, timeout 5 ms: trigger present in bit 0, line in bits 15:8, edge in bits 23:16 (12.4). -/
theorem test_link_start_waits :
    (next? (.linkStart { blank with w1 := 0x00010701, w2 := 5 }) { taking with link := linkIn .stopped .external }).map
      (fun t => (t.link.state, t.lines.watch, t.link.timeout)) =
      some (.waiting, some { line := 7, edge := .falling }, some 5) := by decide +kernel
/-- Frame 0 of a run: frame number 0, generation word with FIRST_FRAME (bit 8), 48 idle fill words (R2, R110, R200). -/
theorem test_link_start_frame_zero :
    (next? (.linkStart blank) { taking with link := linkIn .stopped .external }).map
      (fun t => t.link.outFrame.map (·.take 6)) = some (some [0, 0x100, 0, 0, 9, 9]) := by decide +kernel
theorem test_link_stop_running :
    (next? (.linkStop blank) { taking with link := { running.link with transmitting := true } }).map
      (fun t => (t.link.state, t.link.stopCause, t.link.stop)) =
      some (.stopping, some .host, some (cmd 0x03)) := by decide +kernel
/-- With nothing in the window and nothing being sent the STOPPING link passes to STOPPED at once (R32). -/
theorem test_link_stop_at_once :
    (next? (.linkStop blank) { taking with link := running.link, comp.reservations := 1 }).map
      (fun t => (t.link.state, t.link.stopCause, t.comp.holding)) =
      some (.stopped, some .host, [.commandDone (cmd 0x03) .ok .none]) := by decide +kernel
theorem test_link_stop_waiting :
    (next? (.linkStop blank)
      { taking with link := { linkIn .waiting .external with start := some (cmd 0x02) }, comp.reservations := 2 }).map
        (·.comp.holding) =
      some [.commandDone (cmd 0x02) .cancelled .none, .commandDone (cmd 0x03) .ok .none] := by decide +kernel
theorem test_frame_timer_numbers :
    (next? .frameTimerExpiry { awaiting with link.frame := 0xFFFFFFFF }).map
      (fun t => (t.link.frame, t.ret.window.map (·.deadline))) = some (0, [200, 200]) := by decide +kernel
/-- Samples 21 and 22 stand on slots 0 and 1 with fresh marks 0 and 1 (R106, R200). -/
theorem test_frame_carries_samples :
    (next? .frameTimerExpiry (outLive .repeat [sample 21, sample 22, sample 23])).map
      (fun t => (t.link.outFrame.map (·.take 7), (t.stream 0).samples)) =
      some (some [6, 0, 3, 0, 21, 22, 9], [sample 23]) := by decide +kernel
theorem test_transmission_end_stops :
    (next? .transmissionEnd
      { running with link := { running.link with state := .stopping, transmitting := true, stop := some (cmd 0x03) } }).map
        (fun t => (t.link.state, t.comp.holding)) =
      some (.stopped, [.commandDone (cmd 0x03) .ok .none]) := by decide +kernel
theorem test_entry_to_stopped_link_down :
    (next? .entryToStopped
      { running with link := { running.link with state := .stopping, stopCause := some .returnFault, badRun := 3 } }).map
        (·.comp.holding) = some [.event (.linkDown .returnFault 5 3)] := by decide +kernel
theorem test_timeout :
    (next? .timeoutExpiry
      { ready with
        link := { linkIn .waiting .external with timeout := some 5, start := some (cmd 0x02) }, comp.reservations := 1 }).map
        (fun t => (t.link.state, t.comp.holding, t.link.stopCause)) =
      some (.stopped, [.commandDone (cmd 0x02) .timeout .none], none) := by decide +kernel

/-! ## Returns and in-streams -/

/-- A return of frame `f`, station word 77, IN slot 0 holding `v` with its valid mark set, and the check word that agrees. -/
def goodReturn (f v : Word) : List Word :=
  let body := [f, 77, 1, 0, v] ++ List.replicate 47 0
  body ++ [checkWord body]

theorem test_return_good :
    (next? (.returnArrival (goodReturn 5 33) false) (inLive .tagged [])).map
      (fun t => (t.ret.window.length, t.ret.lastStation, (t.stream 0).elements)) =
      some (0, 77, [element 33]) := by decide +kernel
/-- The same words with a trailing run of bits fail the check: DAMAGED, the fill word in PLAIN mode (R6, R121). -/
theorem test_return_damaged :
    (next? (.returnArrival (goodReturn 5 33) true) (inLive .plain [])).map
      (fun t => (t.link.badRun, (t.stream 0).elements, t.comp.holding)) =
      some (1, [{ value := 0xF, channel := 0, condition := .damaged, frame := 5 }], [.event (.linkDegraded 5 0)]) := by
  decide +kernel
/-- An in-stream of depth 8 in TAGGED mode holds four elements; a fifth turn is lost as an overrun (R123, R124). -/
theorem test_deadline_overrun :
    (next? .deadlineExpiry (inLive .tagged [element 1, element 2, element 3, element 4])).map
      (fun t => ((t.stream 0).elements.length, (t.stream 0).runCount, t.comp.holding)) =
      some (4, 1, [.event (.streamOverrun 0 5), .event (.linkDegraded 5 0)]) := by decide +kernel
theorem test_looped_return :
    (next? .loopedReturn
      { awaiting with
        link := { awaiting.link with config := some (config .internal), loopDue := true, outFrame := some (goodReturn 5 1) } }).map
        (fun t => (t.ret.window, t.link.loopDue)) = some ([], false) := by decide +kernel

/-- A STOPPING link with frame 5 awaited, its transmission over, a STOP outstanding and a swap armed. -/
def lastAwaited : State :=
  { awaiting with
    link := { awaiting.link with state := .stopping, frameTimer := false, stopCause := some .host, stop := some (cmd 0x03) }
    sched.swapArmed := true
    sched.commit := some (cmd 0x21)
    comp.reservations := 2 }

/-- The return that empties the window brings STOPPED, in the order of R32: the COMMIT, then the STOP (2.8, Course A, with a swap
armed). -/
theorem test_last_return_stops :
    (next? (.returnArrival (goodReturn 5 33) false) lastAwaited).map (fun t => (t.link.state, t.sched.generation, t.comp.holding)) =
      some (.stopped, 1, [.commandDone (cmd 0x21) .ok (.swapped 1 none), .commandDone (cmd 0x03) .ok .none]) := by decide +kernel
/-- A damaged looped return that brings the run to the threshold, with nothing left: LINK_DOWN in the same step (R17, R32, R33). -/
theorem test_looped_fault_stop :
    (next? .loopedReturn
      { awaiting with
        link := { awaiting.link with config := some (config .internal), loopDue := true, badRun := 2, outFrame := some [5] } }).map
        (fun t => (t.link.state, t.comp.holding)) =
      some (.stopped, [.event (.linkDown .returnFault 5 3)]) := by decide +kernel

/-! ## Stream commands -/

/-- OPEN STREAM 0, OUT, 2 channels, period 1, phase 0, FILL, depth 8, fill word 15, ring of 4 at 0x3000 (12.4). -/
def openRecord : CommandRecord :=
  { blank with w1 := 0x01020000, w2 := 0x00080100, w4 := 0xF, w5 := 0x3000, w7 := 4 }

theorem test_open_stream :
    (next? (.openStream openRecord) taking).map (fun t => (t.freePool, (t.stream 0).shape, t.comp.holding)) =
      some (504, some (outShape .fill), [.commandDone (cmd 0x10) .ok (.freePool 504)]) := by decide +kernel
theorem test_open_stream_bad_depth :
    (next? (.openStream { openRecord with w2 := 0x00090100 }) taking).map (·.comp.holding) =
      some [.commandDone (cmd 0x10) .badParameter .none] := by decide +kernel
theorem test_close_stream_named :
    (next? (.closeStream blank)
      { withStream taking (streamIn .live (outShape .fill)) with sched.active := outBank }).map (·.comp.holding) =
      some [.commandDone (cmd 0x11) .inSchedule .none] := by decide +kernel
theorem test_restart_stream_holds :
    (next? (.restartStream { blank with w2 := 3 }) (withStream taking (streamIn .opened (outShape .fill)))).map
      (fun t => ((t.stream 0).state, (t.stream 0).pendingOperation, t.proc.state)) =
      some (.quiescing, some (.restart 3), .held (cmd 0x12)) := by decide +kernel
/-- Snapshot words 0, 2, 3 and 7 of a LIVE out-stream: state 2; direction 0, channels 2, period 1, phase 0; policy 1, depth 8,
one word staged; ring size 4 (R198). -/
theorem test_query_stream :
    (next? (.queryStream { blank with w2 := 0x40 })
      (withStream taking { streamIn .live (outShape .fill) with samples := [sample 5] })).map
        (fun t => t.port.map fun q => (q.address,
          match q.transfer with | .read _ => [] | .write ws => [ws.getD 0 0, ws.getD 2 0, ws.getD 3 0, ws.getD 7 0])) =
      some [(0x40, [2, 0x00010200, 0x00010801, 4])] := by decide +kernel
theorem test_snapshot_write_error :
    (next? (.snapshotWriteDone true)
      { ready with
        proc.state := .held (cmd 0x13), comp.reservations := 1
        port := [{ requester := .streamTable, address := 0x40, transfer := .write [] }] }).map
        (fun t => (t.comp.holding, t.proc.state)) =
      some ([.commandDone (cmd 0x13) .writeError .none], .idle) := by decide +kernel

/-- READY with stream 0 quiescing and its command held. -/
def quiesced (op : PendingOperation) (list : List Entry) (drained : Bool) : State :=
  { withStream ready
      { streamIn .quiescing (outShape .fill) with
        pendingOperation := some op, list := list, drained := drained, fetch := list.length, producer := list.length } with
    proc.state := .held (cmd 0x11)
    comp.reservations := 1 }

/-- The state with the cursor of stream 0 at the entry of the ring index given. -/
def setCursor (s : State) (ringIndex moved : Nat) : State :=
  withStream s { s.stream 0 with cursor := some { ringIndex := ringIndex, moved := moved } }

/-- A head with some elements done is TRUNCATED, the entry behind it ABORTED with no element done (R54, R98). -/
theorem test_drain_finished :
    (next? (.drainFinished 0)
      (quiesced .close
        [{ entry with done := 2, firstFrame := some 4, lastFrame := some 5 }, { entry with ringIndex := 1, report := false }]
        false)).map
        (fun t => t.comp.holding.map fun r =>
          match r with
          | .blockDone b => (b.status, b.done, b.retireIndex)
          | .commandDone _ _ _ => (.complete, 0, 0)
          | .event _ => (.complete, 0, 0)) =
      some [(.truncated, 2, 1), (.aborted, 0, 2)] := by decide +kernel
theorem test_end_of_close :
    (next? (.endOfClose 0) (quiesced .close [] true)).map (fun t => (t.freePool, t.stream 0, t.comp.holding)) =
      some (512, Stream.reset, [.commandDone (cmd 0x11) .ok (.closed 0 512)]) := by decide +kernel
theorem test_end_of_restart :
    (next? (.endOfRestart 0) (quiesced (.restart 3) [] true)).map
      (fun t => ((t.stream 0).state, (t.stream 0).fetch, (t.stream 0).retire)) = some (.opened, 3, 3) := by decide +kernel

/-! ## The schedule -/

/-- A LOAD of 20 entries reads 16 first (R67, R69). -/
theorem test_load_schedule :
    (next? (.loadSchedule { blank with w1 := 0x500, w3 := 20 }) taking).map (·.port) =
      some [{ requester := .scheduleUnit, address := 0x500, transfer := .read 16 }] := by decide +kernel
theorem test_held_load_performed :
    (next? .heldLoadPerformed { ready with sched.load := .held 0x500 3 .empty, proc.state := .held (cmd 0x20) }).map
      (·.port) = some [{ requester := .scheduleUnit, address := 0x500, transfer := .read 3 }] := by decide +kernel

/-- READY with a LOAD of two entries read and stream 0 an OPEN out-stream. -/
def loading : State :=
  { withStream ready (streamIn .opened (outShape .fill)) with
    proc.state := .held (cmd 0x20)
    comp.reservations := 1
    sched.load := .performing [] 0x500 2 0
    port := [{ requester := .scheduleUnit, address := 0x500, transfer := .read 2 }] }

/-- PLACE out-slot 0 stream 0 channels 0 and 1 on slots 0 and 1 (12.7). -/
theorem test_change_list_done :
    (next? (.changeListReadDone [0x10000000, 0x10010001]) loading).map (fun t => (t.sched.pending, t.comp.holding)) =
      some (outBank, [.commandDone (cmd 0x20) .ok (.placements 2)]) := by decide +kernel
/-- Both channels of one stream on one slot collide, at change index 1 (R64, R70). -/
theorem test_change_list_collision :
    (next? (.changeListReadDone [0x10000000, 0x10010000]) loading).map (fun t => (t.sched.pending, t.comp.holding)) =
      some ([], [.commandDone (cmd 0x20) .badChange (.change 1 .collision (some 0))]) := by decide +kernel
theorem test_change_list_read_error :
    (next? .changeListReadError loading).map (fun t => (t.sched.load, t.comp.holding)) =
      some (.none, [.commandDone (cmd 0x20) .readError (.change 0 .none none)]) := by decide +kernel
theorem test_commit_incomplete :
    (next? (.commitSchedule blank)
      { withStream taking (streamIn .opened (outShape .fill)) with sched.pending := outBank.take 1 }).map (·.comp.holding) =
      some [.commandDone (cmd 0x21) .incomplete (.lacking 0)] := by decide +kernel
theorem test_commit_stopped :
    (next? (.commitSchedule blank)
      { withStream taking (streamIn .opened (outShape .fill)) with sched.pending := outBank }).map
        (fun t => ((t.stream 0).state, t.sched.active, t.comp.holding)) =
      some (.live, outBank, [.commandDone (cmd 0x21) .ok (.swapped 1 none)]) := by decide +kernel
theorem test_cancel_commit :
    (next? (.cancelCommit blank)
      { taking with sched.swapArmed := true, sched.commit := some (cmd 0x21), comp.reservations := 2 }).map
        (fun t => (t.sched.swapArmed, t.comp.holding)) =
      some (false, [.commandDone (cmd 0x21) .cancelled .none, .commandDone (cmd 0x22) .ok .none]) := by decide +kernel

/-! ## Lines -/

/-- Line 0 BOTH, line 7 RISING: four bits a line (12.4). -/
theorem test_set_sense :
    (next? (.setSense { blank with w1 := 0x10000003 }) taking).map
      (fun t => (t.lines.sense[0].select, t.lines.sense[1].select, t.lines.sense[7].select)) =
      some (.both, .none, .rising) := by decide +kernel

/-- RUNNING with sense line 2 set to RISING. -/
def sensing : State := { running with lines.sense := running.lines.sense.set 2 { SenseLine.reset false with select := .rising } }

/-- The offset stops at the frame period less 1 (R141). -/
theorem test_sense_edge_offset :
    (next? (.senseLineEdge 2 .rising 250) sensing).map (fun t => (t.comp.holding, t.lines.sense[2].frameMark)) =
      some ([.event (.senseEdge 2 .rising (some (5, 99)) 0)], true) := by decide +kernel
theorem test_sense_edge_unselected :
    (next? (.senseLineEdge 2 .falling 3) sensing).map (fun t => (t.comp.holding, t.lines.sense[2].level)) =
      some ([], false) := by decide +kernel
theorem test_trigger_report_starts :
    (next? .triggerEdgeReport
      { ready with
        link := { linkIn .waiting .external with start := some (cmd 0x02) }, comp.reservations := 1
        lines.reports := [{ line := 2, edge := .rising, current := true }] }).map
        (fun t => (t.link.state, t.comp.holding, t.ret.window.length)) =
      some (.running, [.commandDone (cmd 0x02) .ok .none], 1) := by decide +kernel

/-! ## Block rings and data paths -/

/-- READY with stream 0 an OPEN out-stream whose ring has descriptors 1 and 2 posted, fetch index 1. -/
def posted : State := withStream ready { streamIn .opened (outShape .fill) with producer := 3, fetch := 1, retire := 1 }

theorem test_descriptor_read_issue :
    (next? (.descriptorReadIssue 0) posted).map (·.port) =
      some [{ requester := .descriptor 0, address := 0x3010, transfer := .read 4 }] := by decide +kernel

/-- The same with the descriptor read in flight. -/
def fetching : State :=
  { withStream ready
      { streamIn .opened (outShape .fill) with producer := 3, fetch := 1, retire := 1, descriptorInFlight := true } with
    port := [{ requester := .descriptor 0, address := 0x3010, transfer := .read 4 }] }

/-- Buffer 0x8000, count 4, cookie 0xC0, REPORT (R196). -/
theorem test_descriptor_read_done :
    (next? (.descriptorReadDone 0 #v[0x8000, 0, 0x00C00004, 1]) fetching).map
      (fun t => ((t.stream 0).list, (t.stream 0).fetch, (t.stream 0).cursor)) =
      some ([{ entry with ringIndex := 1 }], 2, some { ringIndex := 1, moved := 0 }) := by decide +kernel
theorem test_bad_descriptor :
    (next? (.descriptorReadDone 0 #v[0x8002, 0, 0x00C00004, 1]) fetching).map
      (fun t => ((t.stream 0).state, t.comp.holding)) =
      some (.faulted, [.event (.streamFault 0 .badDescriptor 1)]) := by decide +kernel
theorem test_descriptor_read_error :
    (next? (.descriptorReadError 0) fetching).map (fun t => ((t.stream 0).faultCause, (t.stream 0).fetch)) =
      some (some .readError, 1) := by decide +kernel

/-- READY with an OPEN out-stream whose cursor stands at 1 of the 4 samples of its only entry, a read in flight or not. -/
def reading (inFlight : Option Nat) (port : List Request) : State :=
  { withStream ready
      { streamIn .opened (outShape .fill) with
        producer := 1, fetch := 1, list := [entry], cursor := some { ringIndex := 0, moved := 1 }, dataInFlight := inFlight } with
    port := port }

theorem test_data_read_issue :
    (next? (.dataReadIssue 0) (reading none [])).map (·.port) =
      some [{ requester := .data 0, address := 0x8004, transfer := .read 3 }] := by decide +kernel
theorem test_data_read_done :
    (next? (.dataReadDone 0 [7, 8, 9]) (reading (some 3) [{ requester := .data 0, address := 0x8004, transfer := .read 3 }])).map
      (fun t => ((t.stream 0).samples, (t.stream 0).cursor)) =
      some ([sample 7, sample 8, { value := 9, blockEnd := true }], none) := by decide +kernel
theorem test_data_read_error :
    (next? (.dataReadError 0) (reading (some 3) [{ requester := .data 0, address := 0x8004, transfer := .read 3 }])).map
      (fun t => ((t.stream 0).state, t.comp.holding)) =
      some (.faulted, [.event (.streamFault 0 .readError 0)]) := by decide +kernel

/-- RUNNING with a LIVE in-stream in TAGGED mode: `done` of the entry's four elements stored, the elements given in staging. -/
def storing (done : Nat) (elements : List Element) (inFlight : Option Nat) : State :=
  { withStream running
      { streamIn .live (inShape .tagged) with
        producer := 1, fetch := 1, list := [{ entry with done := done }], cursor := some { ringIndex := 0, moved := done }
        elements := elements, dataInFlight := inFlight } with
    sched.active := inBank
    port := match inFlight with
      | none => []
      | some n => [{ requester := .data 0, address := 0x8000, transfer := .write (List.replicate (2 * n) 0) }] }

/-- The tag of a FRESH element of channel 0 in frame 5 is 5 (R199); the third element stands 8 words on. -/
theorem test_data_write_issue :
    (next? (.dataWriteIssue 0) (storing 2 [element 30, element 31, element 32] none)).map (·.port) =
      some [{ requester := .data 0, address := 0x8010, transfer := .write [30, 5, 31, 5] }] := by decide +kernel
theorem test_data_write_done :
    (next? (.dataWriteDone 0) (storing 2 [element 30, element 31, element 32] (some 2))).map
      (fun t => ((t.stream 0).elements, (t.stream 0).list, t.comp.holding)) =
      some ([element 32], [],
        [.blockDone
          { stream := 0, ringIndex := 0, cookie := 0xC0, status := .complete, done := 4, frames := some (5, 5), fresh := 2,
            stale := 0, damaged := 0, missing := 0, retireIndex := 1 }]) := by decide +kernel
theorem test_data_write_error :
    (next? (.dataWriteError 0) (storing 2 [element 30] (some 1))).map
      (fun t => ((t.stream 0).faultCause, (t.stream 0).elements)) = some (some .writeError, [element 30]) := by decide +kernel

/-! ## The completion ring -/

theorem test_ring_write_issue :
    (next? .ringWriteIssue { ready with comp.holding := [.event (.eventLoss 3)], comp.produce := 7 }).map (·.port) =
      some [{ requester := .completionUnit, address := 0x20E0, transfer := .write [0x00000B83, 0, 0, 3, 0, 0, 0, 0] }] := by
  decide +kernel
theorem test_ring_write_done_wraps :
    (next? .ringWriteDone
      { ready with
        comp.holding := [.event (.eventLoss 3)], comp.produce := 7, comp.acknowledge := 7
        port := [{ requester := .completionUnit, address := 0x20E0, transfer := .write [] }] }).map
        (fun t => (t.comp.produce, t.comp.passMark, t.comp.timer, t.comp.holding)) =
      some (0, false, .running, []) := by decide +kernel
theorem test_ring_write_error :
    (next? .ringWriteError
      { ready with
        comp.holding := [.event (.eventLoss 3)]
        port := [{ requester := .completionUnit, address := 0x2000, transfer := .write [] }] }).map
        (fun t => (t.host.lastFault, t.comp.holding.length)) = some (.completionWrite, 1) := by decide +kernel
theorem test_event_loss :
    (next? .eventLoss { ready with comp.lossCount := 3 }).map (fun t => (t.comp.holding, t.comp.lossCount)) =
      some ([.event (.eventLoss 3)], 0) := by decide +kernel
theorem test_waiting_command_served :
    (next? .waitingCommandServed { ready with proc.producer := 1, proc.state := .waitingPlace }).map
      (fun t => (t.proc.state, t.comp.reservations)) = some (.reading, 1) := by decide +kernel
theorem test_waiting_retirement_served :
    (next? .waitingRetirementServed
      (withStream ready
        { streamIn .opened (outShape .fill) with
          list := [{ entry with done := 4, finished := some .complete }], fetch := 1, producer := 1 })).map
        (fun t => ((t.stream 0).retire, t.comp.holding.length)) = some (1, 1) := by decide +kernel

/-- READY with the list full, the write of its head in flight, the lost events, processor state and stream 0 given. -/
def writingFull (lost : Nat) (state : ProcessorState) (c : Stream) : State :=
  { withStream ready c with
    comp.holding := List.replicate 32 (.event (.eventLoss 1))
    comp.lossCount := lost
    proc := { ready.proc with state := state, producer := 1 }
    port := [{ requester := .completionUnit, address := 0x2000, transfer := .write [] }] }

/-- An OPEN stream whose head, of 4 samples, is finished; behind it the entries given. -/
def waitingBlock (behind : List Entry) : Stream :=
  { streamIn .opened (outShape .fill) with
    list := { entry with done := 4, finished := some .complete } :: behind, fetch := 1 + behind.length
    producer := 1 + behind.length }

/-- The place of a written record goes to the loss before a waiting command, in the same step (R169). -/
theorem test_ring_write_hands_on_loss :
    (next? .ringWriteDone (writingFull 2 .waitingPlace (waitingBlock []))).map
      (fun t => (t.comp.holding.getLast?, t.comp.lossCount, t.proc.state)) =
      some (some (.event (.eventLoss 2)), 0, .waitingPlace) := by decide +kernel

/-- With no loss and no command waiting it goes to the waiting retirement, so an event behind it is lost (R169). -/
theorem test_ring_write_hands_on_retirement :
    ((next? .ringWriteDone (writingFull 0 .idle (waitingBlock []))).bind (next? (.notifyNoRing 99 5))).map
      (fun t => ((t.stream 0).retire, t.placesInUse, t.comp.lossCount)) = some (1, 32, 1) := by decide +kernel

/-- An answer to no request changes nothing (log entry 8). -/
theorem test_answer_without_request : exec .ringWriteDone ready = .next ready := rfl
theorem test_holdoff_expiry :
    (next? .holdoffExpiry { ready with comp.unacknowledged := 1, comp.produce := 1, comp.timer := .running }).map
      (·.interruptLine) = some true := by decide +kernel

/-! ## The step -/

theorem test_step_takes_the_front :
    (match step { State.reset with pending := [.registerWrite .baseLow true 32, .enable] } with
      | .next t => (t.host.baseLow, t.pending)
      | .fault _ => (0, [])
      | .refused _ => (0, [])) = (32, [.enable]) := by decide +kernel

/-- The block idles on an empty queue (DESIGN CHOICE, log entry 2). -/
theorem test_step_idles : step State.reset = .next State.reset := rfl

/-! ## Witnesses: the step, the register window and the engine states -/

theorem witness_StepRunsFrontCommand :
    ({ State.reset with pending := [.enable, .softReset] } : State).pending = .enable :: [.softReset] := rfl

/-- A next state; no request for an answer, a request of the other kind, and one of another length. -/
theorem witness_CommandsLeaveTheQueueAndComplete :
    (∃ t, exec .enable State.reset = .next t) ∧ (∃ t, step { State.reset with pending := [.enable] } = .next t)
    ∧ (answers .ringWriteDone = some .completionUnit ∧ State.reset.inFlight .completionUnit = false)
    ∧ (let s := storing 2 [element 1] (some 1);
      s.host.engine ≠ .resetting
      ∧ s.request (.data 0) = some { requester := .data 0, address := 0x8000, transfer := .write [0, 0] })
    ∧ (let s := reading (some 3) [{ requester := .data 0, address := 0x8004, transfer := .read 3 }]
      s.request (.data 0) = some { requester := .data 0, address := 0x8004, transfer := .read 3 }
      ∧ ([7, 8] : List Word).length ≠ 3 ∧ s.host.engine = .ready ∧ (s.stream 0).state = .opened)
    ∧ (loading.host.engine = .ready ∧ loading.proc.state = .held (cmd 0x20)
      ∧ loading.request .scheduleUnit = some { requester := .scheduleUnit, address := 0x500, transfer := .read 2 }
      ∧ loading.sched.load = .performing [] 0x500 2 0 ∧ (Transfer.read 2).length ≠ ([0] : List Word).length) :=
  ⟨⟨_, rfl⟩, ⟨_, rfl⟩, by decide +kernel, by decide +kernel, by decide +kernel, by decide +kernel⟩

/-- Pin released; a control word without either action; pin held. -/
theorem witness_RegisterWindowAccess :
    State.reset.host.resetHeld = false ∧ (4 : Word).getLsbD 0 = false ∧ (4 : Word).getLsbD 1 = false
    ∧ ({ State.reset with host.resetHeld := true } : State).host.resetHeld = true := by decide +kernel

theorem ready_ringInv : RingInv ready := by
  refine ⟨?_, ?_, ?_, ?_, ?_⟩
  · exact ⟨by decide, by decide, by decide, by decide, by decide, by decide⟩
  all_goals decide +kernel

/-- A threshold of 9 over a ring of 8, and a holdoff that has run out. -/
def unreachable : State :=
  { ready with
    comp.config := some { base := 0x2000, size := 8, threshold := 9, holdoff := 50 }
    comp.unacknowledged := 8
    comp.timer := .expired }

theorem unreachable_ringInv : RingInv unreachable := by
  refine ⟨?_, ?_, ?_, ?_, ?_⟩
  · exact ⟨by decide, by decide, by decide, by decide, by decide, by decide⟩
  all_goals decide +kernel

theorem witness_InterruptLineLevel :
    (RingInv ready ∧ ready.host.engine = .ready ∧ ready.comp.unacknowledged = 0)
    ∧ RingInv unreachable ∧ unreachable.host.engine = .ready
    ∧ unreachable.comp.config = some { base := 0x2000, size := 8, threshold := 9, holdoff := 50 } ∧ 8 < 9 :=
  ⟨⟨ready_ringInv, rfl, rfl⟩, unreachable_ringInv, rfl, rfl, by decide⟩

/-- LOADING with the control-area read in flight. -/
def controlLoading : State :=
  { State.reset with host.engine := .loading, port := [{ requester := .hostWindow, address := 0, transfer := .read 8 }] }

/-- Bases 0, 32 and 31; the least and the greatest fields of a control area; a command ring size and a threshold out of range. -/
theorem witness_EnableLoadsTheControlArea :
    (State.reset.host.resetHeld = false ∧ State.reset.host.engine = .off ∧ (address 0 0).toNat % 32 = 0
      ∧ (address 32 0).toNat % 32 = 0 ∧ (address 31 0).toNat % 32 ≠ 0 ∧ (address 33 0).toNat % 32 ≠ 0
      ∧ ready.host.resetHeld = false ∧ ready.host.engine ≠ .off)
    ∧ (controlLoading.host.engine = .loading ∧ controlLoading.inFlight .hostWindow = true)
    ∧ controlAreaValid #v[0, 0, 32, 0, 4, 4, 1, 0] ∧ controlAreaValid #v[0xFFFFFFE0, 0xFFFFFFFF, 0, 0, 1024, 4096, 255, 0]
    ∧ ¬ controlAreaValid #v[0, 0, 32, 0, 4, 4, 0x100, 0] ∧ ¬ controlAreaValid #v[31, 0, 32, 0, 4, 4, 1, 0] := by
  refine ⟨by decide +kernel, by decide +kernel, ⟨by decide, by decide, ⟨2, by decide⟩, ⟨2, by decide⟩, by decide⟩,
    ⟨by decide, by decide, ⟨10, by decide⟩, ⟨12, by decide⟩, by decide⟩, ?_, ?_⟩
  · rintro ⟨-, -, -, -, h⟩
    revert h
    decide
  · rintro ⟨h, -⟩
    revert h
    decide

theorem witness_RingErrorsEnterFault :
    (controlLoading.host.engine = .loading ∧ controlLoading.inFlight .hostWindow = true)
    ∧ (taking.host.engine = .ready ∧ taking.inFlight .commandProcessor = true)
    ∧ (∃ s : State, s.host.engine = .ready ∧ s.inFlight .completionUnit = true) :=
  ⟨by decide +kernel, by decide +kernel,
    { ready with port := [{ requester := .completionUnit, address := 0x2000, transfer := .write [] }] }, by decide +kernel⟩

/-- FAULT with every kind of request in flight: stream 0 writes, stream 1 reads. -/
def faulted : State :=
  { withStream ready { streamIn .live (inShape .plain) with dataInFlight := some 2, descriptorInFlight := true } with
    host.engine := .fault
    port :=
      [{ requester := .hostWindow, address := 0, transfer := .read 8 },
       { requester := .completionUnit, address := 0x2000, transfer := .write [] },
       { requester := .commandProcessor, address := 0x1000, transfer := .read 8 },
       { requester := .scheduleUnit, address := 0x500, transfer := .read 2 },
       { requester := .streamTable, address := 0x40, transfer := .write [] },
       { requester := .descriptor 0, address := 0x4000, transfer := .read 4 },
       { requester := .data 0, address := 0x8000, transfer := .write [1, 2] },
       { requester := .data 1, address := 0x9000, transfer := .read 3 }] }

theorem witness_AnswersInFaultAreDiscarded :
    faulted.host.engine = .fault ∧ faulted.inFlight .hostWindow = true ∧ faulted.inFlight .completionUnit = true
    ∧ faulted.inFlight .commandProcessor = true ∧ faulted.inFlight .scheduleUnit = true ∧ faulted.inFlight .streamTable = true
    ∧ faulted.inFlight (.descriptor 0) = true
    ∧ faulted.request (.data 1) = some { requester := .data 1, address := 0x9000, transfer := .read 3 }
    ∧ faulted.request (.data 0) = some { requester := .data 0, address := 0x8000, transfer := .write [1, 2] }
    ∧ Instr.linkStop blank ∈ commandReadRows 0x42 blank := by decide +kernel

/-- RESETTING with two requests in flight, and with one. -/
theorem witness_SoftResetReachesOff :
    (taking.host.resetHeld = false ∧ taking.host.engine ≠ .resetting ∧ taking.port ≠ [])
    ∧ (ready.host.resetHeld = false ∧ ready.host.engine ≠ .resetting ∧ ready.port = [])
    ∧ (let s := { faulted with host.engine := .resetting }
      s.host.engine = .resetting ∧ s.inFlight .streamTable = true ∧ s.portWithout .streamTable ≠ [])
    ∧ (let s := { taking with host.engine := .resetting }
      s.host.resetHeld = false ∧ s.host.engine = .resetting ∧ s.inFlight .commandProcessor = true
      ∧ s.portWithout .commandProcessor = []) := by decide +kernel

/-! ## Witnesses: notifies and the interrupt moderation -/

/-- Out of READY; values 7 and 8 at a ring of 8; the value that withdraws the record being read, and its neighbour. -/
theorem witness_CommandRingNotify :
    (State.reset.host.resetHeld = false ∧ State.reset.host.engine ≠ .ready)
    ∧ (ready.host.resetHeld = false ∧ ready.host.engine = .ready ∧ ready.proc.ring = some { base := 0x1000, size := 8 }
      ∧ 8 ≤ (8 : BitVec 16).toNat ∧ (7 : BitVec 16).toNat < 8 ∧ ready.proc.state ≠ .reading)
    ∧ (taking.host.engine = .ready ∧ taking.proc.ring = some { base := 0x1000, size := 8 } ∧ taking.proc.state = .reading
      ∧ (0 : BitVec 16).toNat = taking.proc.consumer ∧ (1 : BitVec 16).toNat ≠ taking.proc.consumer) := by decide +kernel

/-- The looks of the statements: a free place, no place, nothing posted. -/
theorem witness_looked :
    ({ ready with proc.producer := 1 } : State).looked.proc.state = .reading
    ∧ (fullUp { ready with proc.producer := 1 }).looked.proc.state = .waitingPlace ∧ ready.looked = ready := by decide +kernel

/-- READY with 3 of 8 records unacknowledged from index 6. -/
def unread : State := { ready with comp.acknowledge := 6, comp.produce := 1, comp.unacknowledged := 3, comp.timer := .running }

/-- Advances 0, 1, 3 and 4 of 3 unacknowledged, and the values 7 and 8 of a ring of 8. -/
theorem witness_AcknowledgeMovesTheIndex :
    unread.host.resetHeld = false ∧ unread.host.engine = .ready
    ∧ (State.reset.host.resetHeld = false ∧ State.reset.host.engine ≠ .ready ∧ State.reset.comp.config = none)
    ∧ unread.comp.config = some { base := 0x2000, size := 8, threshold := 2, holdoff := 50 } ∧ unread.comp.acknowledge < 8
    ∧ 8 ≤ (8 : BitVec 16).toNat
    ∧ 0 = ((6 : BitVec 16).toNat + (8 - unread.comp.acknowledge)) % 8
    ∧ 1 = ((7 : BitVec 16).toNat + (8 - unread.comp.acknowledge)) % 8 ∧ 1 ≤ unread.comp.unacknowledged
    ∧ 3 = ((1 : BitVec 16).toNat + (8 - unread.comp.acknowledge)) % 8 ∧ 3 ≤ unread.comp.unacknowledged
    ∧ 4 = ((2 : BitVec 16).toNat + (8 - unread.comp.acknowledge)) % 8 ∧ unread.comp.unacknowledged < 4 := by decide +kernel

/-- Out of READY; a CLOSED stream; a ring of 4 with one descriptor being fetched from retire index 1: values 4, 1 and 2. -/
theorem witness_BlockRingNotify :
    State.reset.host.engine ≠ .ready ∧ (ready.host.engine = .ready ∧ (ready.stream 31).state = .closed)
    ∧ (fetching.host.resetHeld = false ∧ fetching.host.engine = .ready ∧ (fetching.stream 0).state ≠ .closed
      ∧ (fetching.stream 0).shape = some (outShape .fill) ∧ (fetching.stream 0).retire < (outShape .fill).ringSize
      ∧ 1 = (fetching.stream 0).list.length + (if (fetching.stream 0).descriptorInFlight then 1 else 0)
      ∧ (outShape .fill).ringSize ≤ (4 : BitVec 16).toNat
      ∧ ((1 : BitVec 16).toNat + ((outShape .fill).ringSize - (fetching.stream 0).retire)) % (outShape .fill).ringSize < 1
      ∧ (2 : BitVec 16).toNat < (outShape .fill).ringSize
      ∧ 1 ≤ ((2 : BitVec 16).toNat + ((outShape .fill).ringSize - (fetching.stream 0).retire)) % (outShape .fill).ringSize) := by
  decide +kernel

theorem witness_NotifyWithoutRingIsStray :
    ready.host.resetHeld = false ∧ 33 < (34 : BitVec 8).toNat ∧ 33 < (255 : BitVec 8).toNat ∧ ready.host.engine = .ready
    ∧ State.reset.host.resetHeld = false ∧ State.reset.host.engine ≠ .ready := by decide +kernel

/-! ## Witnesses: the Command Processor -/

theorem taking_taking : taking.Taking := by
  refine ⟨rfl, rfl, ?_⟩
  decide +kernel

/-- The record of `taking` may be taken whatever the other blocks hold. -/
theorem taking_with (s : State) (h : s.host = taking.host) (hp : s.proc = taking.proc) (hq : s.port = taking.port) :
    s.Taking := by
  refine ⟨by rw [h]; rfl, by rw [hp]; rfl, ?_⟩
  simp only [State.inFlight, State.request, hq]
  decide +kernel

/-- A record to read with a place free, with none free, no record to read, and a record being taken. -/
theorem witness_CommandRecordsAreRead :
    (let s := { ready with proc.producer := 1 };
      s.host.engine = .ready ∧ s.proc.state = .idle ∧ s.proc.consumer ≠ s.proc.producer
      ∧ s.proc.ring = some { base := 0x1000, size := 8 } ∧ s.freePlace = true ∧ (fullUp s).freePlace = false
      ∧ (fullUp s).proc = s.proc)
    ∧ ¬ (ready.host.engine = .ready ∧ ready.proc.state = .idle ∧ ready.proc.consumer ≠ ready.proc.producer)
    ∧ taking.Taking := ⟨by decide +kernel, by decide +kernel, taking_taking⟩

theorem witness_PostEventPresentsFirst :
    taking.Taking ∧ (fullUp taking).Taking ∧ 255 < ({ blank with w1 := 256 } : CommandRecord).w1.toNat
    ∧ ({ blank with w1 := 255 } : CommandRecord).w1.toNat ≤ 255 ∧ taking.freePlace = true
    ∧ (fullUp taking).freePlace = false :=
  ⟨taking_taking, taking_with _ rfl rfl rfl, by decide, by decide, by decide +kernel, by decide +kernel⟩

/-- Kinds 0, 1 and 2; not RUNNING; RUNNING with either arm set or clear. -/
theorem witness_InjectFaultArms :
    let r (k : Word) : CommandRecord := { blank with w1 := k }
    let s (a b : Bool) : State :=
      { taking with link := { linkIn .running .external with corruptOut := a, dropReturn := b } }
    taking.Taking ∧ taking.link.state ≠ .running ∧ (∀ a b, (s a b).Taking ∧ (s a b).link.state = .running)
    ∧ ((r 2).w1 ≠ 0 ∧ (r 2).w1 ≠ 1) ∧ (r 0).w1 = 0 ∧ (r 1).w1 = 1
    ∧ (s true false).link.corruptOut = true ∧ (s false true).link.dropReturn = true :=
  ⟨taking_taking, by decide +kernel, fun _ _ => ⟨taking_with _ rfl rfl rfl, rfl⟩, by decide, rfl, rfl, rfl, rfl⟩

/-! ## Witnesses: the link -/

/-- The link in the state given, with a record being taken. -/
def takingIn (state : LinkState) : State := { taking with link := linkIn state .external }

theorem takingIn_taking (state : LinkState) : (takingIn state).Taking := taking_with _ rfl rfl rfl

/-- Whether the four fields of LINK CONFIGURE are in range. -/
def configures (r : CommandRecord) : Prop :=
  80 ≤ r.w1.toNat ∧ r.w1.toNat ≤ 10000 ∧ (r.w2 = 0 ∨ r.w2 = 1) ∧ r.w3.toNat ≤ 255

/-- Periods 79, 80, 10000 and 10001, mode 2, thresholds 255 and 256; every link state. -/
theorem witness_LinkConfigureJudged :
    (∀ state, (takingIn state).Taking ∧ (takingIn state).link.state = state)
    ∧ configures { blank with w1 := 80 } ∧ configures { blank with w1 := 10000, w2 := 1, w3 := 255 }
    ∧ ¬ configures { blank with w1 := 79 } ∧ ¬ configures { blank with w1 := 10001 }
    ∧ ¬ configures { blank with w1 := 80, w2 := 2 } ∧ ¬ configures { blank with w1 := 80, w3 := 256 } := by
  refine ⟨fun _ => ⟨takingIn_taking _, rfl⟩, ?_⟩
  unfold configures
  decide

/-- Whether LINK START carries a trigger that fails its check. -/
def badTrigger (r : CommandRecord) : Prop := r.w1.getLsbD 0 = true ∧ (7 < field r.w1 8 8 ∨ 1 < field r.w1 16 8)

/-- Lines 7 and 8, edges 1 and 2, no trigger; STOPPED, RUNNING, and WAITING with its START outstanding. -/
theorem witness_LinkStartJudged :
    (takingIn .stopped).Taking ∧ (takingIn .stopped).link.state = .stopped
    ∧ badTrigger { blank with w1 := 0x00000801 } ∧ badTrigger { blank with w1 := 0x00020001 }
    ∧ ¬ badTrigger { blank with w1 := 0x00010701 } ∧ ¬ badTrigger { blank with w1 := 0x00020800 }
    ∧ (takingIn .running).Taking ∧ (takingIn .running).link.state ≠ .stopped ∧ (takingIn .running).link.start = none
    ∧ (let s := { takingIn .waiting with link := { linkIn .waiting .external with start := some (cmd 0x02) } }
      s.Taking ∧ s.link.state ≠ .stopped ∧ s.link.start.isSome = true)
    ∧ (let r := { blank with w1 := 0x00010701 }
      r.w1.getLsbD 0 = true ∧ field r.w1 8 8 = (7 : LineId).val ∧ field r.w1 16 8 = edgeCode .falling) := by
  refine ⟨takingIn_taking _, rfl, ?_⟩
  unfold badTrigger
  exact ⟨by decide, by decide, by decide, by decide, takingIn_taking _, by decide +kernel, rfl,
    ⟨taking_with _ rfl rfl rfl, by decide +kernel, by decide +kernel⟩, by decide⟩

theorem witness_LinkStartRunsAtOnce :
    let s := takingIn .stopped
    s.Taking ∧ s.link.state = .stopped ∧ blank.w1.getLsbD 0 = false ∧ s.link.config = some (config .external)
    ∧ s.ret.window = [] ∧ s.sched.swapArmed = false := ⟨takingIn_taking _, rfl, by decide, rfl, rfl, rfl⟩

/-- Every link state; RUNNING with an entry in the window, with a frame in transmission, and with neither; STOPPING with and
without a STOP outstanding. -/
theorem witness_LinkStopInEveryState :
    (∀ state, (takingIn state).Taking ∧ (takingIn state).link.state = state ∧ (takingIn state).link.stop = none)
    ∧ ((takingIn .running).ret.window = [] ∧ (takingIn .running).link.transmitting = false)
    ∧ (let s := { takingIn .running with ret.window := awaiting.ret.window }
      s.Taking ∧ s.link.state = .running ∧ s.ret.window ≠ [])
    ∧ (let s := { takingIn .running with link := { linkIn .running .external with transmitting := true } }
      s.Taking ∧ s.link.state = .running ∧ s.link.transmitting = true)
    ∧ (let s := { takingIn .stopping with link := { linkIn .stopping .external with stop := some (cmd 0x03) } }
      s.Taking ∧ s.link.state = .stopping ∧ s.link.stop.isSome = true) :=
  ⟨fun _ => ⟨takingIn_taking _, rfl, rfl⟩, ⟨rfl, rfl⟩, ⟨taking_with _ rfl rfl rfl, rfl, by decide⟩,
    ⟨taking_with _ rfl rfl rfl, rfl, rfl⟩, taking_with _ rfl rfl rfl, rfl, rfl⟩

theorem witness_EntriesToStopped :
    (let s := { ready with link := { linkIn .waiting .external with timeout := some 1 } };
      s.host.engine = .ready ∧ s.link.state = .waiting ∧ s.link.timeout.isSome = true)
    ∧ ¬ (ready.host.engine = .ready ∧ ready.link.state = .waiting ∧ ready.link.timeout.isSome = true)
    ∧ (let s (b : Bool) : State := { ready with link := { linkIn .stopping .external with transmitting := b } }
      (s false).host.engine = .ready ∧ (s false).link.state = .stopping ∧ (s false).ret.window = []
      ∧ (s false).link.transmitting = false ∧ (s true).link.transmitting = true)
    ∧ (let s := { awaiting with link := { linkIn .stopping .external with transmitting := true } }
      s.host.engine = .ready ∧ s.ret.window ≠ [] ∧ s.link.transmitting = true)
    ∧ (let s := { ready with host.engine := .fault, link := { linkIn .running .external with transmitting := true } }
      s.host.engine = .fault ∧ s.link.state = .running ∧ s.link.transmitting = true) := by decide +kernel

/-- The timer not running; windows of none, one and two entries; an addition that reaches the threshold, and one that does not. -/
theorem witness_FrameTimerStartsNextFrame :
    ¬ (ready.host.engine = .ready ∧ ready.link.state = .running ∧ ready.link.frameTimer = true)
    ∧ (running.host.engine = .ready ∧ running.link.state = .running ∧ running.link.frameTimer = true
      ∧ running.link.config = some (config .external) ∧ running.sched.swapArmed = false ∧ running.ret.window.length ≤ 1
      ∧ awaiting.ret.window.length ≤ 1)
    ∧ (let e1 : WindowEntry := { frame := 4, generation := 0, deadline := 200 }
      let e2 : WindowEntry := { frame := 5, generation := 0, deadline := 200 }
      let s (n : Nat) : State := { running with ret.window := [e1, e2], link.badRun := n };
      (∀ n, (s n).host.engine = .ready ∧ (s n).link.state = .running ∧ (s n).link.frameTimer = true
        ∧ (s n).link.config = some (config .external) ∧ (s n).ret.window = [e1, e2])
      ∧ beginsFaultStop (s 0) 2 = false ∧ beginsFaultStop (s 1) 2 = true ∧ (s 0).link.badRun = 0) := by
  refine ⟨by decide +kernel, by decide +kernel, fun _ => ⟨rfl, rfl, rfl, rfl, rfl⟩, by decide +kernel, by decide +kernel, rfl⟩

/-! ## Witnesses: the turns of the streams -/

/-- RUNNING with stream 0 LIVE and starving: one sample staged of two, last samples 20 and 21. -/
def starving (policy : UnderrunPolicy) : State :=
  { withStream running { streamIn .live (outShape policy) with samples := [sample 22], lastSamples := [some 20, some 21] } with
    sched.active := outBank }

/-- The bank rules of a state that performs no LOAD, part by part. -/
theorem banksInv_of (s : State) (hn : NamesInv s) (hc : ∀ i : StreamId, (s.stream i).state = .closed ↔ (s.stream i).shape = none)
    (ha : s.bankFits s.sched.active) (hp : s.bankFits s.sched.pending) (hl : s.sched.load = .none)
    (hk : s.lowestLacking s.sched.active = none) (hm : s.lowestLacking s.sched.pending = none) : BanksInv s := by
  refine ⟨hn, hc, ?_, hk, fun _ => ⟨hm, hl⟩⟩
  intro b hb
  simp only [Schedule.banks, hl, List.mem_cons, List.not_mem_nil, or_false] at hb
  rcases hb with rfl | rfl
  · exact ha
  · exact hp

theorem emptyBank_fits (s : State) : s.bankFits [] := ⟨by simp, by simp, by simp [Bank.onSlot]⟩

/-- The ring index rules of a state where stream 0 alone is open, part by part. -/
theorem streamsInv_with (s : State) (sh : Shape) (h0 : (s.stream 0).shape = some sh) (hs : sh.legal)
    (hr : ∀ i : StreamId, i ≠ 0 → (s.stream i).shape = none)
    (hp : ∀ i : StreamId, s.inFlight (.descriptor i) = false)
    (hf : ∀ i : StreamId, (s.stream i).descriptorInFlight = false ∧ (s.stream i).drained = false)
    (hi : (s.stream 0).producer < sh.ringSize ∧ (s.stream 0).retire < sh.ringSize
      ∧ (s.stream 0).fetch = ((s.stream 0).retire + (s.stream 0).list.length) % sh.ringSize ∧ (s.stream 0).list.length ≤ 2)
    (hl : ∀ (k : Nat) (e : Entry), (s.stream 0).list[k]? = some e → e.ringIndex = ((s.stream 0).retire + k) % sh.ringSize)
    (ho : (s.stream 0).pendingOperation = none) : StreamsInv s := by
  refine ⟨fun i h => ?_, fun i _ => (hf i).1, fun i h => ?_, fun i sh' h => ?_⟩
  · simp [hp i] at h
  · simp [(hf i).2] at h
  · by_cases hi0 : i = 0
    · subst hi0
      rw [h0] at h
      cases h
      exact ⟨hs, hi.1, hi.2.1, hi.2.2.1, by simpa [(hf 0).1, flag] using hi.2.2.2, hl, by simp [ho]⟩
    · simp [hr i hi0] at h

/-- The same with an empty list. -/
theorem streamsInv_of (s : State) (sh : Shape) (h0 : (s.stream 0).shape = some sh) (hs : sh.legal)
    (hr : ∀ i : StreamId, i ≠ 0 → (s.stream i).shape = none)
    (hp : ∀ i : StreamId, s.inFlight (.descriptor i) = false)
    (hf : ∀ i : StreamId, (s.stream i).descriptorInFlight = false ∧ (s.stream i).drained = false)
    (hl : (s.stream 0).list = []) (hi : (s.stream 0).producer = 0 ∧ (s.stream 0).fetch = 0 ∧ (s.stream 0).retire = 0)
    (ho : (s.stream 0).pendingOperation = none) (hz : 0 < sh.ringSize) : StreamsInv s := by
  obtain ⟨h1, h2, h3⟩ := hi
  exact streamsInv_with s sh h0 hs hr hp hf (by simp [h1, h2, h3, hl, hz]) (by simp [hl]) ho

theorem outShape_legal (policy : UnderrunPolicy) : (outShape policy).legal := by
  cases policy <;> (unfold Shape.legal; decide)

theorem inShape_legal (mode : TagMode) : (inShape mode).legal := by
  cases mode <;> (unfold Shape.legal; decide)

theorem outBank_fits (s : State) (policy : UnderrunPolicy) (h : (s.stream 0).shape = some (outShape policy)) :
    s.bankFits outBank := by
  refine ⟨?_, ?_, fun lane => by cases lane <;> decide +kernel⟩
  · intro p hp
    simp only [outBank, List.mem_cons, List.not_mem_nil, or_false] at hp
    rcases hp with rfl | rfl <;> (unfold State.placementFits; rw [h]; cases policy <;> decide)
  · simp [outBank, State.placementsAgree]

theorem starving_banksInv (policy : UnderrunPolicy) : BanksInv (starving policy) := by
  refine banksInv_of _ ?_ ?_ (outBank_fits _ policy ?_) (emptyBank_fits _) rfl ?_ ?_
  · cases policy <;> (unfold NamesInv HeldInv State.quiescing; decide +kernel)
  all_goals cases policy <;> decide +kernel

theorem starving_streamsInv (policy : UnderrunPolicy) : StreamsInv (starving policy) := by
  refine streamsInv_of _ (outShape policy) ?_ (outShape_legal policy) ?_ ?_ ?_ ?_ ?_ ?_ ?_
  all_goals cases policy <;> decide +kernel

/-- RUNNING with stream 0 LIVE and two samples staged. -/
def feeding : State :=
  { withStream running { streamIn .live (outShape .repeat) with samples := [sample 22, sample 23] } with sched.active := outBank }

theorem feeding_banksInv : BanksInv feeding := by
  refine banksInv_of _ ?_ ?_ (outBank_fits _ .repeat ?_) (emptyBank_fits _) rfl ?_ ?_
  · unfold NamesInv HeldInv State.quiescing
    decide +kernel
  all_goals decide +kernel

theorem feeding_streamsInv : StreamsInv feeding := by
  refine streamsInv_of _ (outShape .repeat) ?_ (outShape_legal .repeat) ?_ ?_ ?_ ?_ ?_ ?_ ?_
  all_goals decide +kernel

/-- RUNNING with stream 0 FAULTED and still named. -/
def failing : State :=
  { withStream running { streamIn .faulted (outShape .repeat) with faultCause := some .readError } with sched.active := outBank }

theorem failing_banksInv : BanksInv failing := by
  refine banksInv_of _ ?_ ?_ (outBank_fits _ .repeat ?_) (emptyBank_fits _) rfl ?_ ?_
  · unfold NamesInv HeldInv State.quiescing
    decide +kernel
  all_goals decide +kernel

theorem failing_streamsInv : StreamsInv failing := by
  refine streamsInv_of _ (outShape .repeat) ?_ (outShape_legal .repeat) ?_ ?_ ?_ ?_ ?_ ?_ ?_
  all_goals decide +kernel

/-- A round start to come, frame 64: stream 0 OPEN with two samples staged, and the bank that names it pending, its swap armed. -/
def opening : State :=
  { withStream running { streamIn .opened (outShape .repeat) with samples := [sample 22, sample 23] } with
    link := { running.link with frame := 63 }
    sched.pending := outBank
    sched.swapArmed := true
    sched.commit := some (cmd 0x21)
    comp.reservations := 1 }

theorem opening_banksInv : BanksInv opening := by
  refine banksInv_of _ ?_ ?_ (emptyBank_fits _) (outBank_fits _ .repeat ?_) rfl ?_ ?_
  · unfold NamesInv HeldInv State.quiescing
    decide +kernel
  all_goals decide +kernel

theorem opening_streamsInv : StreamsInv opening := by
  refine streamsInv_of _ (outShape .repeat) ?_ (outShape_legal .repeat) ?_ ?_ ?_ ?_ ?_ ?_ ?_
  all_goals decide +kernel

/-- The report of the watched edge. -/
def report : TriggerReport := { line := 2, edge := .rising, current := true }

/-- The same swap armed before the link runs: a STOPPED link whose LINK START is being taken, or a WAITING link with a report. -/
def openingBy (triggered : Bool) : State :=
  { opening with
    link := if triggered then { linkIn .waiting .external with start := some (cmd 0x02) } else linkIn .stopped .external
    lines.reports := if triggered then [report] else []
    proc := taking.proc
    port := taking.port }

theorem openingBy_banksInv (triggered : Bool) : BanksInv (openingBy triggered) := by
  refine banksInv_of _ ?_ ?_ (emptyBank_fits _) (outBank_fits _ .repeat ?_) rfl ?_ ?_
  · cases triggered <;> (unfold NamesInv HeldInv State.quiescing; decide +kernel)
  all_goals cases triggered <;> decide +kernel

theorem openingBy_streamsInv (triggered : Bool) : StreamsInv (openingBy triggered) := by
  refine streamsInv_of _ (outShape .repeat) ?_ (outShape_legal .repeat) ?_ ?_ ?_ ?_ ?_ ?_ ?_
  all_goals cases triggered <;> decide +kernel

/-- The command starts frame `f` from the state, and its words are kept. -/
def startsFrame (s : State) (c : Instr) (f : FrameNo) : Prop :=
  FrameStarts s c f ∧ ∃ t words, exec c s = .next t ∧ t.link.outFrame = some words

theorem startsFrame_of (s : State) (c : Instr) (f : FrameNo) (hf : FrameStarts s c f)
    (h : ((next? c s).bind fun t => t.link.outFrame).isSome = true) : startsFrame s c f := by
  obtain ⟨words, hw⟩ := Option.isSome_iff_exists.mp h
  obtain ⟨t, ht, htw⟩ := Option.bind_eq_some_iff.mp hw
  refine ⟨hf, t, words, ?_, htw⟩
  unfold next? at ht
  split at ht
  · rename_i t' h'
    cases ht
    exact h'
  · cases ht
  · cases ht

/-- The frame timer starts frame 6 from the state. -/
theorem timer_starts (s : State) (hl : s.link = running.link) (he : s.host = running.host)
    (h : ((next? .frameTimerExpiry s).bind fun t => t.link.outFrame).isSome = true) : startsFrame s .frameTimerExpiry 6 :=
  startsFrame_of s _ _ (.inl ⟨rfl, by rw [he]; rfl, by rw [hl]; rfl, by rw [hl]; rfl, by rw [hl]; decide⟩) h

/-- The frame timer at a round start, LINK START without a trigger, and a trigger report, each with the swap armed. -/
theorem opening_starts :
    startsFrame opening .frameTimerExpiry 64 ∧ startsFrame (openingBy false) (.linkStart blank) 0
    ∧ startsFrame (openingBy true) .triggerEdgeReport 0 := by
  refine ⟨startsFrame_of _ _ _ (.inl ⟨rfl, rfl, rfl, rfl, by decide⟩) (by decide +kernel),
    startsFrame_of _ _ _ (.inr (.inl ⟨blank, rfl, taking_with _ rfl rfl rfl, rfl, by decide, rfl⟩)) (by decide +kernel),
    startsFrame_of _ _ _ (.inr (.inr ⟨rfl, rfl, rfl, rfl, report, [], rfl, rfl⟩)) (by decide +kernel)⟩

/-- Frame 63 of a run has been started, and a swap is armed; OPEN and to be named, LIVE and named by neither, CLOSED. -/
theorem witness_RoundStartPerformsArmedSwap :
    (opening.host.engine = .ready ∧ opening.link.state = .running ∧ opening.link.frameTimer = true
      ∧ (64 : FrameNo) = opening.link.frame + 1 ∧ (64 : FrameNo).toNat % 64 = 0 ∧ opening.sched.swapArmed = true
      ∧ opening.sched.commit = some (cmd 0x21) ∧ opening.link.config = some (config .external)
      ∧ opening.link.runGeneration = some opening.sched.generation ∧ opening.ret.window.length ≤ 1)
    ∧ BanksInv opening ∧ StreamsInv opening
    ∧ ((opening.stream 0).state = .opened ∧ opening.sched.pending.names 0 = true ∧ (opening.stream 31).state = .closed
      ∧ (opening.stream 0).shape = some (outShape .repeat))
    ∧ (let s := { feeding with
        link := { feeding.link with frame := 63 }, sched.swapArmed := true, sched.commit := some (cmd 0x21) }
      s.link.runGeneration = some s.sched.generation ∧ (s.stream 0).state = .live ∧ s.sched.pending.names 0 = false) :=
  ⟨by decide +kernel, opening_banksInv, opening_streamsInv, by decide +kernel, by decide +kernel⟩

/-- A good turn, an underrun under REPEAT and under FILL, a FAULTED stream; slot 47, which no placement names; the three commands that
start a frame, with a swap to perform, under whose bank the OPEN stream is LIVE with two samples staged. -/
theorem witness_SlotWordsFollowTheTable :
    (∀ s ∈ [feeding, starving .repeat, starving .fill, failing],
      BanksInv s ∧ StreamsInv s ∧ startsFrame s .frameTimerExpiry 6 ∧ s.link.config = some (config .external)
      ∧ s.swapsAt 6 = false
      ∧ ({ lane := .outLane, slot := 1, stream := 0, channel := 1 } : Placement) ∈ s.bankFor 6
      ∧ (6 : FrameNo).toNat % 1 = 0)
    ∧ (feeding.stream 0).shape = some (outShape .repeat)
    ∧ ((feeding.stream 0).state = .live ∧ 2 ≤ (feeding.stream 0).samples.length
      ∧ (feeding.stream 0).samples[(1 : ChannelId).val]? = some (sample 23))
    ∧ (∀ policy, ((starving policy).stream 0).state = .live ∧ ((starving policy).stream 0).samples.length < 2
      ∧ ((starving policy).stream 0).lastSamples[(1 : ChannelId).val]? = some (some 21))
    ∧ (failing.stream 0).state = .faulted
    ∧ (∀ p ∈ feeding.sched.active, p.slot ≠ 47)
    ∧ ((BanksInv opening ∧ StreamsInv opening ∧ startsFrame opening .frameTimerExpiry 64)
      ∧ (∀ b, BanksInv (openingBy b) ∧ StreamsInv (openingBy b))
      ∧ startsFrame (openingBy false) (.linkStart blank) 0
      ∧ startsFrame (openingBy true) .triggerEdgeReport 0)
    ∧ (opening.bankFor 64 = outBank ∧ (opening.streamFor 64 0).state = .live
      ∧ (opening.streamFor 64 0).samples[(1 : ChannelId).val]? = some (sample 23)) := by
  refine ⟨?_, rfl, by decide +kernel, fun p => by cases p <;> decide +kernel, by decide +kernel, by decide +kernel,
    ⟨⟨opening_banksInv, opening_streamsInv, opening_starts.1⟩,
      fun _ => ⟨openingBy_banksInv _, openingBy_streamsInv _⟩, opening_starts.2⟩, by decide +kernel⟩
  intro s hs
  simp only [List.mem_cons, List.not_mem_nil, or_false] at hs
  rcases hs with rfl | rfl | rfl | rfl
  · exact ⟨feeding_banksInv, feeding_streamsInv, timer_starts _ rfl rfl (by decide +kernel), rfl, by decide +kernel,
      by decide +kernel, by decide +kernel⟩
  · exact ⟨starving_banksInv _, starving_streamsInv _, timer_starts _ rfl rfl (by decide +kernel), rfl, by decide +kernel,
      by decide +kernel, by decide +kernel⟩
  · exact ⟨starving_banksInv _, starving_streamsInv _, timer_starts _ rfl rfl (by decide +kernel), rfl, by decide +kernel,
      by decide +kernel, by decide +kernel⟩
  · exact ⟨failing_banksInv, failing_streamsInv, timer_starts _ rfl rfl (by decide +kernel), rfl, by decide +kernel,
      by decide +kernel, by decide +kernel⟩

/-- RUNNING with stream 0 a LIVE out-stream, two samples staged, the list given. -/
def turning (first second : Bool) (list : List Entry) : State :=
  { withStream running
      { streamIn .live (outShape .repeat) with
        samples := [{ value := 22, blockEnd := first }, { value := 23, blockEnd := second }]
        list := list, fetch := list.length, producer := list.length } with
    sched.active := outBank }

/-- The ring index rules of such a state, its list in ring order from index 0. -/
theorem turning_streamsInv (first second : Bool) (list : List Entry) (hn : list.length ≤ 2)
    (hl : ∀ (k : Nat) (e : Entry), list[k]? = some e → e.ringIndex = k) : StreamsInv (turning first second list) := by
  have closed : ∀ i : StreamId, running.stream i = Stream.reset := by decide +kernel
  have other : ∀ i : StreamId, i ≠ 0 → (turning first second list).stream i = Stream.reset := fun i hi =>
    (stream_setStream_of_ne running _ hi).trans (closed i)
  refine streamsInv_with _ (outShape .repeat) rfl (outShape_legal .repeat) (fun i hi => by rw [other i hi]; rfl) (fun _ => rfl)
    (fun i => ?_) ⟨(by omega : list.length < 4), (by decide : 0 < 4), ?_, hn⟩ (fun k e h => ?_) rfl
  · by_cases hi : i = 0
    · subst hi
      exact ⟨rfl, rfl⟩
    · rw [other i hi]
      exact ⟨rfl, rfl⟩
  · change list.length = (0 + list.length) % 4
    omega
  · have hk : k < list.length := (List.getElem?_eq_some_iff.mp h).1
    rw [hl k e h]
    change k = (0 + k) % 4
    omega

/-- The first and the second of the two samples end a block, by their places. -/
theorem turnEndsAt (first second : Bool) (list : List Entry) (places : List Nat) (h0 : first = decide (0 ∈ places))
    (h1 : second = decide (1 ∈ places)) : TurnEndsAt ((turning first second list).stream 0) (outShape .repeat) places := by
  intro m y hm hy
  change m < 2 at hm
  obtain rfl | rfl : m = 0 ∨ m = 1 := by omega
  · cases hy
    rw [h0]
    simp
  · cases hy
    rw [h1]
    simp

/-- The frame timer's frame start of frame 6 is such a turn, from any state of this kind. -/
theorem takesGoodTurn_of (s : State) (x : Stream) (hs : StreamsInv s) (hf : startsFrame s .frameTimerExpiry 6)
    (hx : s.streamFor 6 0 = x) (hn : (s.bankFor 6).names 0 = true)
    (h : x.shape = some (outShape .repeat) ∧ x.state = .live ∧ 2 ≤ x.samples.length ∧ x.drained = false) :
    ∃ t, TakesGoodTurn s t .frameTimerExpiry 6 0 x (outShape .repeat) := by
  obtain ⟨hf, t, words, ht, -⟩ := hf
  exact ⟨t, hs, hf, ht, hx.symm, h.1, rfl, hn, rfl, h.2.1, by decide, h.2.2.1, h.2.2.2⟩

/-- A LIVE stream with C samples and with C − 1, with its run flag set and clear, and one that is not LIVE; each named and due. A
stream that no bank names, and an in-stream that is due. -/
theorem witness_OutStreamTurns :
    (∀ s ∈ [feeding, starving .repeat, failing],
      StreamsInv s ∧ startsFrame s .frameTimerExpiry 6 ∧ s.streamFor 6 0 = s.stream 0 ∧ (s.stream 0).shape = some (outShape .repeat)
      ∧ (s.bankFor 6).names 0 = true ∧ (6 : FrameNo).toNat % (outShape .repeat).period = (outShape .repeat).phase)
    ∧ (StreamsInv opening ∧ startsFrame opening .frameTimerExpiry 64 ∧ (opening.streamFor 64 0).state = .live
      ∧ (opening.bankFor 64).names 0 = true)
    ∧ (outShape .repeat).kind.lane = .outLane
    ∧ ((feeding.stream 0).state = .live ∧ (outShape .repeat).channels ≤ (feeding.stream 0).samples.length)
    ∧ (((starving .repeat).stream 0).state = .live ∧ ((starving .repeat).stream 0).runFlag = false
      ∧ ((starving .repeat).stream 0).samples.length < (outShape .repeat).channels)
    ∧ (failing.stream 0).state ≠ .live
    ∧ (feeding.ret.window.length ≤ 1 ∧ feeding.swapsAt 6 = false ∧ (feeding.bankFor 6).names 31 = false)
    ∧ (feeding.stream 0).isOut = true
    ∧ ((inLive .tagged []).ret.window.length ≤ 1 ∧ startsFrame (inLive .tagged []) .frameTimerExpiry 6
      ∧ ((inLive .tagged []).stream 0).shape = some (inShape .tagged) ∧ (inShape .tagged).kind.lane = .inLane) := by
  refine ⟨?_, ⟨opening_streamsInv, opening_starts.1, by decide +kernel, by decide +kernel⟩, rfl, by decide +kernel, by decide +kernel,
    by decide +kernel, by decide +kernel, by decide +kernel, by decide +kernel, timer_starts _ rfl rfl (by decide +kernel), by decide +kernel, rfl⟩
  intro s hs
  simp only [List.mem_cons, List.not_mem_nil, or_false] at hs
  rcases hs with rfl | rfl | rfl
  on_goal 1 => refine ⟨feeding_streamsInv, ?_⟩
  on_goal 2 => refine ⟨starving_streamsInv _, ?_⟩
  on_goal 3 => refine ⟨failing_streamsInv, ?_⟩
  all_goals
    exact ⟨timer_starts _ rfl rfl (by decide +kernel), by decide +kernel, by decide +kernel, by decide +kernel,
      by decide +kernel⟩

/-- The second entry of a list, behind `entry`. -/
def next : Entry := { entry with ringIndex := 1 }

/-- The turns that move blocks: no block end, one at the first place with the next block behind it, one at the second place, and both;
REPORT clear, and set with a place free and with none; a head that waits. -/
theorem witness_OutStreamTurns_blocks :
    let quiet : Entry := { entry with report := false }
    let waiting : Entry := { entry with finished := some .complete }
    (∀ s ∈ [turning false false [entry], turning true false [quiet, next], turning true false [entry, next],
        turning false true [entry], turning true true [entry, next], turning true true [quiet, next],
        fullUp (turning false true [entry]), fullUp (turning true true [entry, next]), fullUp (turning true true [quiet, next]),
        fullUp (turning false false [waiting, next]), fullUp (turning false true [waiting, next])],
      ∃ t, TakesGoodTurn s t .frameTimerExpiry 6 0 (s.stream 0) (outShape .repeat))
    ∧ (∀ list, TurnEndsAt ((turning false false list).stream 0) (outShape .repeat) [])
    ∧ (∀ list, TurnEndsAt ((turning true false list).stream 0) (outShape .repeat) [0])
    ∧ (∀ list, TurnEndsAt ((turning false true list).stream 0) (outShape .repeat) [1])
    ∧ (∀ list, TurnEndsAt ((turning true true list).stream 0) (outShape .repeat) [0, 1])
    ∧ entry.finished = none ∧ next.finished = none ∧ 1 ≤ entry.count ∧ 1 ≤ next.count ∧ entry.report = true ∧ quiet.report = false
    ∧ next.report = true
    ∧ (∀ s ∈ [turning true false [entry, next], turning true true [entry, next]],
        (next? .frameTimerExpiry s).map (fun t => decide (t.placesInUse < 32)) = some true)
    ∧ ∀ s, 32 ≤ (fullUp s).placesInUse := by
  refine ⟨?_, fun l => turnEndsAt false false l [] rfl rfl, fun l => turnEndsAt true false l [0] rfl rfl,
    fun l => turnEndsAt false true l [1] rfl rfl, fun l => turnEndsAt true true l [0, 1] rfl rfl,
    rfl, rfl, by decide, by decide, rfl, rfl, rfl, by decide +kernel, fun _ => Nat.le_refl 32⟩
  have one (a b : Bool) (e : Entry) (h : e.ringIndex = 0) : StreamsInv (turning a b [e]) :=
    turning_streamsInv a b [e] (Nat.le_succ 1) fun k x hx => by
      match k, hx with
      | 0, hx => cases hx; exact h
  have two (a b : Bool) (e1 e2 : Entry) (h1 : e1.ringIndex = 0) (h2 : e2.ringIndex = 1) : StreamsInv (turning a b [e1, e2]) :=
    turning_streamsInv a b [e1, e2] (Nat.le_refl 2) fun k x hx => by
      match k, hx with
      | 0, hx => cases hx; exact h1
      | 1, hx => cases hx; exact h2
  intro s hs
  simp only [List.mem_cons, List.not_mem_nil, or_false] at hs
  rcases hs with rfl | rfl | rfl | rfl | rfl | rfl | rfl | rfl | rfl | rfl | rfl
  all_goals
    refine takesGoodTurn_of _ _ ?_ (timer_starts _ rfl rfl (by decide +kernel)) (by decide +kernel) (by decide +kernel)
      (by decide +kernel)
  · exact one _ _ _ rfl
  · exact two _ _ _ _ rfl rfl
  · exact two _ _ _ _ rfl rfl
  · exact one _ _ _ rfl
  · exact two _ _ _ _ rfl rfl
  · exact two _ _ _ _ rfl rfl
  · exact one false true entry rfl
  · exact two true true entry next rfl rfl
  · exact two true true _ next rfl rfl
  · exact two false false _ next rfl rfl
  · exact two false true _ next rfl rfl

/-- Marker 3 bound to stream 0 with the greatest advance, marker 0 without a binding; a frame without and with a swap. -/
theorem witness_MarkersFollowTheirStreams :
    (let s := { feeding with
      lines.markers := feeding.lines.markers.set 3 { binding := some { stream := 0, advance := 3 }, active := false } }
    startsFrame s .frameTimerExpiry 6 ∧ s.lines.markers[3].binding = some { stream := 0, advance := 3 }
    ∧ (s.stream 0).shape = some (outShape .repeat) ∧ s.lines.markers[0].binding = none)
    ∧ startsFrame opening .frameTimerExpiry 64 ∧ startsFrame (openingBy false) (.linkStart blank) 0
    ∧ startsFrame (openingBy true) .triggerEdgeReport 0 :=
  ⟨⟨timer_starts _ rfl rfl (by decide +kernel), by decide +kernel, by decide +kernel, by decide +kernel⟩, opening_starts⟩

/-- The pins of a RUNNING link in each loop mode, in transmission and idle; a frame start in each; RESET out of RESETTING. -/
theorem witness_MarkersFollowTheirStreams_pins :
    (∀ mode, ∃ s : State, s.link.config = some (config mode) ∧ s.link.transmitting = true ∧ s.link.state = .running)
    ∧ (running.link.config = some (config .external) ∧ running.link.transmitting = false)
    ∧ startsFrame feeding .frameTimerExpiry 6 ∧ feeding.link.config = some (config .external)
    ∧ (let s := { running with link := { running.link with config := some (config .internal) } }
      startsFrame s .frameTimerExpiry 6 ∧ s.link.config = some (config .internal))
    ∧ (ready.host.resetHeld = false ∧ ready.host.engine ≠ .resetting)
    ∧ (({ running with lines.markers := running.lines.markers.set 0 { binding := none, active := true } } : State).markerPinHigh 0
        = true)
    ∧ ({ ready with host.engine := .fault } : State).interruptPinLow = true :=
  ⟨fun mode => ⟨{ running with link := { linkIn .running mode with transmitting := true } }, rfl, rfl, rfl⟩, ⟨rfl, rfl⟩,
    timer_starts _ rfl rfl (by decide +kernel), rfl,
    ⟨startsFrame_of _ _ _ (.inl ⟨rfl, rfl, rfl, rfl, by decide⟩) (by decide +kernel), rfl⟩, by decide +kernel, by decide +kernel,
    by decide +kernel⟩

/-- The frame in transmission stands on the OUT lane in EXTERNAL mode, and nothing does in INTERNAL mode (R1, R17). -/
theorem test_out_lane :
    let s (mode : LoopMode) : State :=
      { running with link := { linkIn .running mode with transmitting := true, outFrame := some [5, 0] } }
    ((s .external).outLaneWords, (s .internal).outLaneWords, running.outLaneWords) = (some [5, 0], none, none) := by
  decide +kernel

/-! ## Witnesses: returns -/

/-- Out of READY; RUNNING neither nor STOPPING; each loop mode; DROP_RETURN armed, in each. -/
theorem witness_ReturnsDisregarded :
    State.reset.host.engine ≠ .ready ∧ (ready.link.state ≠ .running ∧ ready.link.state ≠ .stopping)
    ∧ (config .internal).mode = .internal
    ∧ (let s := { awaiting with link := { awaiting.link with dropReturn := true } }
      s.link.config = some (config .external) ∧ (config .external).mode = .external ∧ s.host.engine = .ready
      ∧ s.link.state = .running ∧ s.link.dropReturn = true)
    ∧ (let s := { awaiting with
        link := { awaiting.link with dropReturn := true, config := some (config .internal), loopDue := true } }
      s.link.config = some (config .internal) ∧ s.host.engine = .ready ∧ s.link.state = .running ∧ s.link.dropReturn = true
      ∧ s.link.loopDue = true ∧ s.link.transmitting = false ∧ s.link.outFrame = some []) := by decide +kernel

theorem awaiting_takes (window : List WindowEntry) (run : Nat) (station : Word) :
    TakesReturn { awaiting with
      ret.window := window, ret.lastStation := station, link := { awaiting.link with badRun := run } } :=
  ⟨rfl, .inl rfl, rfl, _, rfl, rfl⟩

/-- The words of `goodReturn` pass the check, whatever they carry. -/
theorem goodReturn_passes (f v : Word) : PassesCheck (goodReturn f v) false :=
  ⟨by simp [goodReturn], rfl, by simp [goodReturn]⟩

/-- Runs of 0, of one below the threshold and of 65535; a return of frame 9, which no entry awaits, good and ragged; no word; with the
window empty and no frame in transmission, an addition that reaches the threshold. -/
theorem witness_UnmatchedReturnCounts :
    (∀ run : Nat, TakesReturn { awaiting with link := { awaiting.link with badRun := run } })
    ∧ awaiting.link.config = some (config .external)
    ∧ ((9 : FrameNo) = (goodReturn 9 0).headD awaiting.link.frame ∧ ∀ e ∈ awaiting.ret.window, e.frame ≠ 9)
    ∧ (PassesCheck (goodReturn 9 0) false ∧ (goodReturn 9 0)[1]? = some 77)
    ∧ ¬ PassesCheck (goodReturn 9 0) true ∧ ¬ PassesCheck [] false ∧ ¬ PassesCheck [9] false
    ∧ (awaiting.link.state = .running ∧ awaiting.ret.window ≠ [])
    ∧ (let s := { running with link := { running.link with badRun := 2 } }
      TakesReturn s ∧ s.ret.window = [] ∧ s.link.transmitting = false
      ∧ beginsFaultStop s (config .external).threshold = true
      ∧ (next? (.returnArrival [9] false) s).map (fun t => (t.link.state, t.link.stopCause)) =
        some (.stopped, some .returnFault)) := by
  refine ⟨fun _ => ⟨rfl, .inl rfl, rfl, _, rfl, rfl⟩, rfl, by decide +kernel, ⟨goodReturn_passes 9 0, rfl⟩, ?_, ?_, ?_,
    by decide +kernel, ⟨rfl, .inl rfl, rfl, _, rfl, rfl⟩, by decide +kernel⟩
  · rintro ⟨-, h, -⟩
    cases h
  · rintro ⟨h, -⟩
    cases h
  · rintro ⟨h, -⟩
    cases h

/-- A window of one entry, and of two with the older and the newer answered; the words that fail the check; an empty window; the
additions that begin a fault stop, the first of two, the second, and neither; a STOPPING link with its last entry. -/
theorem witness_ReturnsResolveTheWindow :
    let e : WindowEntry := { frame := 5, generation := 0, deadline := 200 }
    let e' : WindowEntry := { frame := 4, generation := 0, deadline := 200 }
    (∀ window ∈ [[e], [e', e], [e, e']], TakesReturn { awaiting with ret.window := window })
    ∧ PassesCheck (goodReturn 5 0) false ∧ (goodReturn 5 0)[0]? = some e.frame ∧ (goodReturn 5 0)[1]? = some 77
    ∧ e'.frame ≠ e.frame ∧ awaiting.link.config = some (config .external)
    ∧ ¬ PassesCheck (goodReturn 5 0) true ∧ (goodReturn 5 0).head? = some e.frame
    ∧ awaiting.host.engine = .ready ∧ awaiting.link.state = .running ∧ awaiting.ret.window = e :: []
    ∧ running.ret.window = []
    ∧ (∀ run : Nat, TakesReturn { awaiting with link := { awaiting.link with badRun := run } })
    ∧ ([2, 1, 0].map fun run => beginsFaultStop { awaiting with link := { awaiting.link with badRun := run } }
        (config .external).threshold) = [true, false, false]
    ∧ 1 + 2 = (config .external).threshold ∧ 0 + 2 ≠ (config .external).threshold
    ∧ (TakesReturn lastAwaited ∧ lastAwaited.ret.window = [e] ∧ lastAwaited.link.state = .stopping
      ∧ lastAwaited.link.transmitting = false) := by
  refine ⟨fun _ _ => ⟨rfl, .inl rfl, rfl, _, rfl, rfl⟩, goodReturn_passes 5 0, rfl, rfl, by decide, rfl, ?_, rfl, rfl, rfl, rfl, rfl,
    fun _ => ⟨rfl, .inl rfl, rfl, _, rfl, rfl⟩, by decide +kernel, by decide, by decide,
    ⟨rfl, .inr rfl, rfl, _, rfl, rfl⟩, rfl, rfl, rfl⟩
  rintro ⟨-, h, -⟩
  cases h

/-- The looped words pass the check, or fail it; windows of none, of one entry and of two, the looped frame the older, the newer, or not
there. -/
theorem witness_LoopedReturnResolves :
    let e : WindowEntry := { frame := 5, generation := 0, deadline := 200 }
    let e' : WindowEntry := { frame := 4, generation := 0, deadline := 200 }
    (∀ (words : List Word) (window : List WindowEntry), ∃ s : State, MakesLoopedReturn s words ∧ s.ret.window = window)
    ∧ e'.frame ≠ e.frame ∧ (goodReturn 5 0)[0]? = some e.frame ∧ PassesCheck (goodReturn 5 0) false
    ∧ ([5, 0] : List Word)[0]? = some e.frame ∧ ¬ PassesCheck [5, 0] false
    ∧ (5 : FrameNo) = ([5, 0] : List Word).headD 0 ∧ (∀ x ∈ [e'], x.frame ≠ 5) := by
  refine ⟨fun words window =>
    ⟨{ awaiting with
        link := { awaiting.link with config := some (config .internal), loopDue := true, outFrame := some words }
        ret.window := window }, ⟨rfl, .inl rfl, rfl, rfl, rfl, rfl, _, rfl, rfl⟩, rfl⟩, by decide, rfl, goodReturn_passes 5 0, rfl, ?_,
    rfl, by decide⟩
  rintro ⟨h, -⟩
  cases h

theorem inBank_fits (s : State) (sh : Shape) (h : (s.stream 0).shape = some sh) (hl : sh.kind.lane = .inLane)
    (hc : 0 < sh.channels) : s.bankFits inBank := by
  refine ⟨?_, by simp [inBank], fun lane => by cases lane <;> decide +kernel⟩
  intro p hp
  simp only [inBank, List.mem_cons, List.not_mem_nil, or_false] at hp
  subst hp
  unfold State.placementFits
  rw [h]
  exact ⟨hl, hc⟩

/-- RUNNING, frame 5 awaited, with stream 0 a FAULTED in-stream that is still named. -/
def inFailing : State := { withStream awaiting (streamIn .faulted (inShape .tagged)) with sched.active := inBank }

theorem inFailing_banksInv : BanksInv inFailing := by
  refine banksInv_of _ ?_ ?_ (inBank_fits _ (inShape .tagged) ?_ rfl (by decide)) (emptyBank_fits _) rfl ?_ ?_
  · unfold NamesInv HeldInv State.quiescing
    decide +kernel
  all_goals decide +kernel

/-- The same with the stream quiescing for a RESTART. -/
def inQuiescing : State :=
  { withStream awaiting { streamIn .quiescing (inShape .tagged) with pendingOperation := some (.restart 3) } with
    sched.active := inBank
    proc.state := .held (cmd 0x12)
    comp.reservations := 1 }

theorem inQuiescing_banksInv : BanksInv inQuiescing := by
  refine banksInv_of _ ?_ ?_ (inBank_fits _ (inShape .tagged) ?_ rfl (by decide)) (emptyBank_fits _) rfl ?_ ?_
  · unfold NamesInv HeldInv State.quiescing
    decide +kernel
  all_goals decide +kernel

theorem inLive_banksInv (n : Fin 5) : BanksInv (inLive .tagged (List.replicate n.val (element 1))) := by
  refine banksInv_of _ ?_ ?_ (inBank_fits _ (inShape .tagged) ?_ rfl (by decide)) (emptyBank_fits _) rfl ?_ ?_
  · unfold NamesInv HeldInv State.quiescing
    revert n
    decide +kernel
  all_goals (revert n; decide +kernel)

/-- The same of an in-stream of period 2, due in even frames alone. -/
def inEven : State :=
  { withStream awaiting (streamIn .live { inShape .tagged with period := 2 }) with sched.active := inBank }

theorem inEven_banksInv : BanksInv inEven := by
  refine banksInv_of _ ?_ ?_ (inBank_fits _ { inShape .tagged with period := 2 } ?_ rfl (by decide)) (emptyBank_fits _) rfl ?_ ?_
  · unfold NamesInv HeldInv State.quiescing
    decide +kernel
  all_goals decide +kernel

/-- Frames 4 and 5 of the run, awaited. -/
def awaited (f : FrameNo) : WindowEntry := { frame := f, generation := 0, deadline := 200 }

/-- The state with the window given, and looping the words given. -/
def withWindow (s : State) (window : List WindowEntry) : State := { s with ret.window := window }
def looping (s : State) (words : List Word) : State :=
  { s with link := { s.link with config := some (config .internal), loopDue := true, outFrame := some words } }

theorem inLive_hasInTurn (n : Fin 5) (window : List WindowEntry) (f : FrameNo) :
    HasInTurn (withWindow (inLive .tagged (List.replicate n.val (element 1))) window) 0 (inShape .tagged) .tagged (awaited f) := by
  refine ⟨rfl, rfl, by decide, ?_, fun c hc => ?_⟩
  · change f.toNat % 1 = 0
    omega
  · have h0 : c = 0 := by
      change c < 1 at hc
      omega
    subst h0
    exact ⟨{ lane := .inLane, slot := 0, stream := 0, channel := 0 }, List.mem_cons_self, rfl, rfl, rfl⟩

/-- A return from the stations and a looped one, good and damaged; windows of one entry and of two; staging with room for two more
turns of two words, for one, and for none: two, three and four elements in a depth of 8; a FAULTED and a QUIESCING stream; one that
is due in the newer of two frames alone. -/
theorem witness_ResolutionsGiveInStreamTurns :
    (∀ (n : Fin 5) (window : List WindowEntry),
      let s := withWindow (inLive .tagged (List.replicate n.val (element 1))) window
      BanksInv s ∧ TakesReturn s ∧ s.ret.window = window ∧ (s.stream 0).state = .live
      ∧ (∀ f, HasInTurn s 0 (inShape .tagged) .tagged (awaited f))
      ∧ ∀ words, BanksInv (looping s words) ∧ MakesLoopedReturn (looping s words) words)
    ∧ (BanksInv inFailing ∧ TakesReturn inFailing ∧ (inFailing.stream 0).state = .faulted)
    ∧ (BanksInv inQuiescing ∧ TakesReturn inQuiescing ∧ (inQuiescing.stream 0).state = .quiescing)
    ∧ (goodReturn 5 1).length = 53 ∧ (goodReturn 5 1)[52]? = some (checkWord ((goodReturn 5 1).take 52))
    ∧ (List.replicate 53 (5 : Word)).length = 53 ∧ (List.replicate 53 (5 : Word))[0]? = some 5
    ∧ (goodReturn 5 1)[0]? = some (awaited 5).frame ∧ (awaited 4).frame ≠ (awaited 5).frame
    ∧ (let staged (n : Nat) := ((inLive .tagged (List.replicate n (element 1))).stream 0).stagedWords
      2 = (inShape .tagged).kind.wordsPerElement * (inShape .tagged).channels
      ∧ staged 2 + 2 * 2 ≤ (inShape .tagged).depth ∧ staged 3 + 2 ≤ (inShape .tagged).depth
      ∧ (inShape .tagged).depth < staged 3 + 2 * 2 ∧ (inShape .tagged).depth < staged 4 + 2)
    ∧ (let s := withWindow inEven [awaited 5, awaited 6]
      BanksInv s ∧ TakesReturn s ∧ (awaited 5).frame.toNat % 2 ≠ 0
      ∧ HasInTurn s 0 { inShape .tagged with period := 2 } .tagged (awaited 6)) := by
  refine ⟨fun n window => ⟨inLive_banksInv n, ⟨rfl, .inl rfl, rfl, _, rfl, rfl⟩, rfl, rfl, fun f => inLive_hasInTurn n window f,
      fun words => ⟨inLive_banksInv n, rfl, .inl rfl, rfl, rfl, rfl, rfl, _, rfl, rfl⟩⟩,
    ⟨inFailing_banksInv, ⟨rfl, .inl rfl, rfl, _, rfl, rfl⟩, by decide +kernel⟩,
    ⟨inQuiescing_banksInv, ⟨rfl, .inl rfl, rfl, _, rfl, rfl⟩, by decide +kernel⟩, by simp [goodReturn],
    (goodReturn_passes 5 1).2.2, by decide, by decide, rfl, by decide, by decide +kernel,
    inEven_banksInv, ⟨rfl, .inl rfl, rfl, _, rfl, rfl⟩, by decide, rfl, rfl, by decide, by decide, fun c hc => ?_⟩
  have h0 : c = 0 := by
    change c < 1 at hc
    omega
  subst h0
  exact ⟨{ lane := .inLane, slot := 0, stream := 0, channel := 0 }, List.mem_cons_self, rfl, rfl, rfl⟩

/-- The frame start that finds two frames unanswered, without a swap and with one; an in-stream due in the older frame, and one that
is not. -/
theorem witness_ResolutionsGiveInStreamTurns_frameStart :
    (∀ (n : Fin 5) (armed : Bool),
      let s := { withWindow (inLive .tagged (List.replicate n.val (element 1))) [awaited 62, awaited 63] with
        link := { running.link with frame := 63 }, sched.swapArmed := armed }
      s.host.engine = .ready ∧ s.link.state = .running ∧ s.link.frameTimer = true ∧ s.ret.window = [awaited 62, awaited 63]
      ∧ s.swapsAt (s.link.frame + 1) = armed ∧ (awaited 62).generation = s.sched.generation
      ∧ (s.stream 0).shape = some (inShape .tagged) ∧ HasInTurn s 0 (inShape .tagged) .tagged (awaited 62))
    ∧ (let s := withWindow inEven [awaited 5, awaited 6]
      s.host.engine = .ready ∧ s.link.state = .running ∧ s.link.frameTimer = true ∧ s.swapsAt (s.link.frame + 1) = false
      ∧ (s.stream 0).shape = some { inShape .tagged with period := 2 } ∧ (awaited 5).frame.toNat % 2 ≠ 0) := by
  have round (armed : Bool) : (armed && decide (((63 : FrameNo) + 1).toNat % 64 = 0)) = armed := by cases armed <;> decide
  exact ⟨fun n armed => ⟨rfl, rfl, rfl, rfl, round armed, rfl, rfl, inLive_hasInTurn n [] 62⟩, by decide +kernel⟩

/-! ## Witnesses: stream commands -/

/-- A record being taken, stream 0 as given. -/
def takingWith (c : Stream) : State := withStream taking c

theorem takingWith_taking (c : Stream) : (takingWith c).Taking := taking_with _ rfl rfl rfl

/-- The fields of `openRecord`, without a marker and with marker 3 at advance 3. -/
theorem openRecord_fields : OpenFields openRecord 0 (outShape .fill) none :=
  ⟨by decide, outShape_legal .fill, by decide, by decide, by decide, by decide, by decide, by decide, by decide, by decide,
    by decide⟩

theorem openRecord_marker_fields :
    OpenFields { openRecord with w3 := 0x00030301 } 0 (outShape .fill) (some (3, 3)) :=
  ⟨by decide, outShape_legal .fill, by decide, by decide, by decide, by decide, by decide, by decide, by decide, by decide,
    by decide⟩

/-- Nine channels, and marker line 4, are bad fields. -/
theorem openRecord_bad_channels : ∀ i sh m, ¬ OpenFields { openRecord with w1 := 0x01090000 } i sh m := by
  rintro i sh m ⟨-, hl, -, hc, -⟩
  have h9 : sh.channels = 9 := by rw [← hc]; decide
  have := hl.2.1
  omega

theorem openRecord_bad_marker : ∀ i sh m, ¬ OpenFields { openRecord with w3 := 0x00000401 } i sh m := by
  rintro i sh m ⟨-, -, -, -, -, -, -, -, -, -, hm⟩
  cases m with
  | none => revert hm; decide
  | some q =>
    obtain ⟨m, a⟩ := q
    have h4 : m.val = 4 := by rw [← hm.2.1]; decide
    omega

/-- A free stream and a pool of depth 8 or 7; a stream that is open; a marker line that is bound. -/
theorem witness_OpenStreamJudged :
    taking.Taking ∧ OpenFields openRecord 0 (outShape .fill) none
    ∧ OpenFields { openRecord with w3 := 0x00030301 } 0 (outShape .fill) (some (3, 3))
    ∧ (∀ i sh m, ¬ OpenFields { openRecord with w1 := 0x01090000 } i sh m)
    ∧ (∀ i sh m, ¬ OpenFields { openRecord with w3 := 0x00000401 } i sh m)
    ∧ (taking.stream 0).state = .closed
    ∧ (outShape .fill).depth ≤ ({ taking with freePool := 8 } : State).freePool
    ∧ ({ taking with freePool := 7 } : State).freePool < (outShape .fill).depth
    ∧ ((takingWith (streamIn .opened (outShape .fill))).stream 0).state ≠ .closed
    ∧ ({ taking with
        lines.markers := taking.lines.markers.set 3 { binding := some { stream := 5, advance := 0 }, active := false } } :
          State).lines.markers[3].binding.isSome = true :=
  ⟨taking_taking, openRecord_fields, openRecord_marker_fields, openRecord_bad_channels, openRecord_bad_marker,
    by decide +kernel, by decide, by decide, by decide +kernel, by decide +kernel⟩

/-- Streams 31 and 32; ring indices 1023 and 1024, and 3 and 4 of a ring of 4; CLOSED, named by a bank, and neither. -/
theorem witness_CloseAndRestartTaken :
    31 < field ({ blank with w1 := 32 } : CommandRecord).w1 0 8
    ∧ field ({ blank with w1 := 31 } : CommandRecord).w1 0 8 = (31 : StreamId).val
    ∧ 1023 < ({ blank with w2 := 1024 } : CommandRecord).w2.toNat ∧ ({ blank with w2 := 1023 } : CommandRecord).w2.toNat ≤ 1023
    ∧ taking.Taking ∧ (taking.stream 0).state = .closed ∧ field blank.w1 0 8 = (0 : StreamId).val
    ∧ (let s := takingWith (streamIn .opened (outShape .fill))
      s.Taking ∧ (s.stream 0).state ≠ .closed ∧ s.sched.active.names 0 = false ∧ s.sched.pending.names 0 = false
      ∧ (s.stream 0).shape = some (outShape .fill) ∧ (outShape .fill).ringSize ≤ 4 ∧ 3 < (outShape .fill).ringSize)
    ∧ (let s := { takingWith (streamIn .opened (outShape .fill)) with sched.pending := outBank }
      s.Taking ∧ (s.stream 0).state ≠ .closed ∧ s.sched.pending.names 0 = true) := by
  refine ⟨by decide, by decide, by decide, by decide, taking_taking, by decide +kernel, by decide, ?_, ?_⟩
  · exact ⟨takingWith_taking _, by decide +kernel, by decide +kernel, by decide +kernel, by decide +kernel, by decide, by decide⟩
  · exact ⟨taking_with _ rfl rfl rfl, by decide +kernel, by decide +kernel⟩

/-- `feeding` with marker 3 bound to its stream, and the ring index rules of that state. -/
def marked : State :=
  { feeding with
    lines.markers := feeding.lines.markers.set 3 { binding := some { stream := 0, advance := 3 }, active := false } }

theorem marked_streamsInv : StreamsInv marked := by
  refine streamsInv_of _ (outShape .repeat) ?_ (outShape_legal .repeat) ?_ ?_ ?_ ?_ ?_ ?_ ?_
  all_goals decide +kernel

/-- Marker 3 alone is bound. -/
theorem marked_markers (m : MarkerId) (b : Binding) (h : marked.lines.markers[m].binding = some b) :
    m = 3 ∧ b = { stream := 0, advance := 3 } := by
  have h3 : ∀ m : MarkerId, m ≠ 3 → marked.lines.markers[m].binding = none := by decide +kernel
  by_cases hm : m = 3
  · subst hm
    cases h
    exact ⟨rfl, rfl⟩
  · rw [h3 m hm] at h
    cases h

/-- Addresses 0x40 and 0x41, stream 32; the write of the snapshot in flight; a CLOSED stream; a LIVE one with a marker. -/
theorem witness_QueryWritesSnapshot :
    taking.Taking ∧ 31 < field ({ blank with w1 := 32 } : CommandRecord).w1 0 8 ∧ (address 0x41 0).toNat % 64 ≠ 0
    ∧ (address 0x40 0).toNat % 64 = 0 ∧ (address 0 0).toNat % 64 = 0 ∧ field blank.w1 0 8 = (0 : StreamId).val
    ∧ (let s := { ready with
        proc.state := .held (cmd 0x13)
        port := [{ requester := .streamTable, address := 0x40, transfer := .write [] }] }
      s.host.engine = .ready ∧ s.inFlight .streamTable = true ∧ s.proc.state = .held (cmd 0x13))
    ∧ (ready.stream 31 = Stream.reset ∧ ready.markerOf 31 = none ∧ ready.inSchedule 31 = false)
    ∧ StreamsInv marked ∧ (∀ m b, marked.lines.markers[m].binding = some b → m = (3 : MarkerId) ∧ b.advance ≤ 3)
    ∧ marked.lines.markers[3].binding = some { stream := 0, advance := 3 }
    ∧ ((marked.stream 0).shape = some (outShape .repeat) ∧ (marked.stream 0).stagedWords < 2 ^ 16
      ∧ (marked.stream 0).runCount < 2 ^ 16 ∧ (marked.stream 0).list = [])
    ∧ ((marked.stream 31).shape = none ∧ (marked.stream 31).producer < 2 ^ 16 ∧ (marked.stream 31).stagedWords < 2 ^ 16) :=
  ⟨taking_taking, by decide, by decide, by decide, by decide, by decide, by decide +kernel, by decide +kernel,
    marked_streamsInv, fun m b h => ⟨(marked_markers m b h).1, by rw [(marked_markers m b h).2]⟩, by decide +kernel,
    by decide +kernel, by decide +kernel⟩

/-- Every element done, some, and none; and a head that is finished already. -/
theorem drained_statuses :
    drainedAs { entry with done := 4 } .complete ∧ drainedAs { entry with done := 3 } .truncated ∧ drainedAs entry .aborted
    ∧ drainedAs { entry with finished := some .complete } .complete
    ∧ secondDrainedAs { entry with finished := some .complete } .complete ∧ secondDrainedAs entry .aborted :=
  ⟨.inr ⟨rfl, by decide, by decide, by decide⟩, .inr ⟨rfl, by decide, by decide, by decide⟩,
    .inr ⟨rfl, by decide, by decide, by decide⟩, .inl rfl, .inl rfl, .inr ⟨rfl, rfl⟩⟩

/-- Lists of none, one and two entries; two places free, one, and none; records of each status. -/
theorem witness_DrainFinishesBlocks :
    (∀ list ∈ [[], [entry], [{ entry with finished := some .complete }, { entry with ringIndex := 1 }]],
      let s := quiesced .close list false
      s.host.engine = .ready ∧ (s.stream 0).state = .quiescing ∧ (s.stream 0).drained = false
      ∧ (s.stream 0).descriptorInFlight = false ∧ (s.stream 0).dataInFlight = none ∧ (s.stream 0).list = list
      ∧ s.placesInUse < 31)
    ∧ (∀ n ∈ [29, 30, 31],
      ({ quiesced .close [entry] false with comp.holding := List.replicate n (.event (.eventLoss 1)) } : State).placesInUse = n + 1)
    ∧ (drainedAs { entry with done := 4 } .complete ∧ drainedAs { entry with done := 3 } .truncated ∧ drainedAs entry .aborted
      ∧ drainedAs { entry with finished := some .complete } .complete
      ∧ secondDrainedAs { entry with finished := some .complete } .complete ∧ secondDrainedAs entry .aborted)
    ∧ (blockDoneOf 0 4 { entry with done := 3 } .truncated).done ≠ 0 ∧ (blockDoneOf 0 4 entry .aborted).done = 0 :=
  ⟨by decide +kernel, by decide +kernel, drained_statuses, by decide, by decide⟩

/-- A finished head with one place free behind a drain: its record enters, and the second entry waits, ABORTED (R98). -/
theorem test_drain_with_one_place :
    (next? (.drainFinished 0)
      { quiesced .close [{ entry with done := 4, finished := some .complete }, { entry with ringIndex := 1 }] false with
        comp.holding := List.replicate 30 (.event (.eventLoss 1)) }).map
      (fun t => ((t.stream 0).list.map (·.finished), (t.stream 0).retire, t.comp.holding.length)) =
      some ([some .aborted], 1, 31) := by decide +kernel

/-- A drain that retires the entry of the cursor leaves it at the first entry left, with nothing stored, or absent (R127). -/
theorem test_drain_moves_the_cursor :
    (next? (.drainFinished 0)
      (setCursor (quiesced .close [{ entry with done := 2 }] false) 0 2)).map
        (fun t => ((t.stream 0).list.length, (t.stream 0).cursor)) = some (0, none)
    ∧ (next? (.drainFinished 0)
      { setCursor (quiesced .close [{ entry with done := 2 }, { entry with ringIndex := 1 }] false) 0 2 with
        comp.holding := List.replicate 30 (.event (.eventLoss 1)) }).map
        (fun t => ((t.stream 0).list.map (·.ringIndex), (t.stream 0).cursor)) =
      some ([1], some { ringIndex := 1, moved := 0 }) := by decide +kernel

/-- The last waiting entry of a quiesce retires into a freed place, and the cursor becomes absent (R127). -/
theorem test_served_retirement_clears_the_cursor :
    (next? .waitingRetirementServed
      (setCursor (quiesced .close [{ entry with done := 2, finished := some .truncated }] true) 0 2)).map
        (fun t => ((t.stream 0).list.length, (t.stream 0).cursor)) = some (0, none) := by decide +kernel

theorem witness_QuiesceEnds :
    ∀ op ∈ [PendingOperation.close, .restart 3],
      let s := quiesced op [] true
      s.host.engine = .ready ∧ (s.stream 0).state = .quiescing ∧ (s.stream 0).drained = true ∧ (s.stream 0).list = []
      ∧ (s.stream 0).shape = some (outShape .fill) ∧ s.proc.state = .held (cmd 0x11)
      ∧ (s.stream 0).pendingOperation = some op := by decide +kernel

/-- READY with stream 0 FAULTED or QUIESCING, with the fault cause given and a data request and a descriptor read in flight. -/
def late (state : StreamState) (cause : Option StreamFault) (sh : Shape) (q : Request) : State :=
  { withStream ready
      { streamIn state sh with
        dataInFlight := some 3, descriptorInFlight := true, faultCause := cause, cursor := some { ringIndex := 0, moved := 1 } } with
    port := [q, { requester := .descriptor 0, address := 0x3000, transfer := .read 4 }] }

/-- A descriptor read in flight; words with count 0 and with a buffer address of 1 and 3; a data read and a data write in flight;
OPEN, FAULTED, and QUIESCING with a fault cause and without. -/
theorem witness_ErrorsFaultTheStream :
    (fetching.host.engine = .ready ∧ (fetching.stream 0).state = .opened ∧ fetching.inFlight (.descriptor 0) = true)
    ∧ field ((#v[4, 0, 0x00C00000, 1] : Vector Word 4)[2]) 0 16 = 0 ∧ field ((#v[1, 0, 4, 1] : Vector Word 4)[0]) 0 2 ≠ 0
    ∧ field ((#v[3, 0, 4, 1] : Vector Word 4)[0]) 0 2 ≠ 0
    ∧ (let s := reading (some 3) [{ requester := .data 0, address := 0x8004, transfer := .read 3 }]
      s.host.engine = .ready ∧ (s.stream 0).state = .opened
      ∧ s.request (.data 0) = some { requester := .data 0, address := 0x8004, transfer := .read 3 }
      ∧ (s.stream 0).cursor = some { ringIndex := 0, moved := 1 })
    ∧ (let s := storing 2 [element 1] (some 1)
      s.host.engine = .ready ∧ (s.stream 0).state = .live
      ∧ s.request (.data 0) = some { requester := .data 0, address := 0x8000, transfer := .write [0, 0] }
      ∧ (s.stream 0).cursor = some { ringIndex := 0, moved := 2 })
    ∧ (let r : Request := { requester := .data 0, address := 0x8004, transfer := .read 3 }
      let w : Request := { requester := .data 0, address := 0x8004, transfer := .write [1, 2, 3] }
      ∀ s ∈ [late .faulted (some .readError) (outShape .fill) r, late .quiescing (some .readError) (outShape .fill) r,
          late .quiescing none (outShape .fill) r, late .faulted (some .writeError) (inShape .plain) w,
          late .quiescing none (inShape .plain) w],
        s.host.engine = .ready ∧ ((s.stream 0).state = .faulted ∨ (s.stream 0).state = .quiescing)
        ∧ s.inFlight (.descriptor 0) = true ∧ (s.request (.data 0) = some r ∨ s.request (.data 0) = some w)
        ∧ (s.stream 0).cursor = some { ringIndex := 0, moved := 1 }) := by decide +kernel

/-! ## Witnesses: the schedule -/

/-- Whether the fields of LOAD SCHEDULE are in range. -/
def loads (r : CommandRecord) : Prop :=
  1 ≤ r.w3.toNat ∧ r.w3.toNat ≤ 512 ∧ (address r.w1 r.w2).toNat % 4 = 0 ∧ r.w4.toNat ≤ 2

/-- Counts 0, 1, 512 and 513, address 2, bases 2 and 3; an armed swap; the retiring mark set and clear; a LOAD held. -/
theorem witness_LoadScheduleTaken :
    loads { blank with w3 := 1 } ∧ loads { blank with w1 := 4, w3 := 512, w4 := 2 } ∧ ¬ loads blank
    ∧ ¬ loads { blank with w3 := 513 } ∧ ¬ loads { blank with w1 := 2, w3 := 1 } ∧ ¬ loads { blank with w3 := 1, w4 := 3 }
    ∧ taking.Taking ∧ taking.sched.swapArmed = false ∧ taking.sched.retiring = false
    ∧ ({ taking with sched.swapArmed := true } : State).Taking ∧ ({ taking with sched.retiring := true } : State).Taking
    ∧ (∀ b, let s : State := { ready with sched.load := .held 0x500 3 .active, sched.retiring := b }
      s.host.engine = .ready ∧ s.sched.load = .held 0x500 3 .active ∧ s.sched.retiring = b) := by
  unfold loads
  exact ⟨by decide, by decide, by decide, by decide, by decide, by decide, taking_taking, rfl, rfl, taking_with _ rfl rfl rfl,
    taking_with _ rfl rfl rfl, fun _ => ⟨rfl, rfl, rfl⟩⟩

/-- A read of the last two entries of two and of three; a list that applies and one whose second change fails. -/
theorem witness_ChangeListApplied :
    (loading.host.engine = .ready ∧ loading.proc.state = .held (cmd 0x20)
      ∧ loading.request .scheduleUnit = some { requester := .scheduleUnit, address := 0x500, transfer := .read 2 }
      ∧ loading.sched.load = .performing [] 0x500 2 0)
    ∧ loading.applyChanges [0x10000000, 0x10010001] 0 [] = .applied outBank
    ∧ loading.applyChanges [0x10000000, 0x10010000] 0 [] = .failed 1 .badChange .collision (some 0)
    ∧ (loading.applyChanges [0x10000000] 0 [] = .applied (outBank.take 1)
      ∧ loading.applyChange (outBank.take 1) 0x10010001 = .applied outBank
      ∧ loading.applyChange (outBank.take 1) 0x10010000 = .failed .badChange .collision (some 0))
    ∧ 2 ≤ 0 + ([0x10000000, 0x10010001] : List Word).length ∧ 0 + ([0x10000000, 0x10010001] : List Word).length < 3 := by
  decide +kernel

/-- READY with three OPEN out-streams: 0 of two channels and period 1, 1 and 2 of one channel, period 2, phases 0 and 1. -/
def threeStreams : State :=
  { ready with
    streams :=
      ((ready.streams.set 0 (streamIn .opened (outShape .fill))).set 1
        (streamIn .opened { outShape .fill with channels := 1, period := 2 })).set 2
        (streamIn .opened { outShape .fill with channels := 1, period := 2, phase := 1 })
    freePool := 488 }

/-- A placement on out-slot 47. -/
def onLast (i : StreamId) (c : ChannelId) : Placement := { lane := .outLane, slot := 47, stream := i, channel := c }

/-- The words of PLACE and CLEAR of stream 2, channel 0, on out-slot 47; each check at the value where it first fails: a CLOSED
stream, the other lane, channel 1 of one, a duplicate, a full slot, a collision with stream 0; fields at 47 and 48, 31 and 32, 7 and
8, lane 1 and 2, action 3. -/
theorem witness_ScheduleChangesChecked :
    (field 0x1000022F 28 4 = 1 ∧ field 0x1000022F 24 4 = 0 ∧ field 0x1000022F 0 8 = (47 : SlotId).val
      ∧ field 0x1000022F 8 8 = (2 : StreamId).val ∧ field 0x1000022F 16 8 = (0 : ChannelId).val)
    ∧ (threeStreams.stream 3).state = .closed ∧ (threeStreams.stream 2).state ≠ .closed
    ∧ (threeStreams.stream 2).shape = some { outShape .fill with channels := 1, period := 2, phase := 1 }
    ∧ (outShape .fill).kind.lane ≠ .inLane ∧ (1 ≤ (1 : ChannelId).val ∧ (0 : ChannelId).val < 1)
    ∧ (∃ q ∈ [onLast 2 0], q.stream = 2 ∧ q.channel = 0)
    ∧ (∀ q ∈ [onLast 1 0], ¬ (q.stream = 2 ∧ q.channel = 0))
    ∧ 4 ≤ ([onLast 4 0, onLast 5 0, onLast 6 0, onLast 7 0].filter fun q => decide (q.lane = .outLane ∧ q.slot = 47)).length
    ∧ ([onLast 1 0].filter fun q => decide (q.lane = .outLane ∧ q.slot = 47)).length < 4
    ∧ (∀ q ∈ [onLast 1 0], q.lane = .outLane → q.slot = 47 → threeStreams.streamsCollide 2 q.stream = false)
    ∧ (threeStreams.streamsCollide 2 (onLast 0 0).stream = true
      ∧ ∀ q' ∈ [onLast 0 0], q'.lane = .outLane → q'.slot = 47 → threeStreams.streamsCollide 2 q'.stream = true →
        (onLast 0 0).stream ≤ q'.stream)
    ∧ (1 < field 0x12000000 24 4 ∧ 47 < field 0x10000030 0 8 ∧ 31 < field 0x10002000 8 8 ∧ 7 < field 0x10080000 16 8
      ∧ field 0x30000000 28 4 ≠ 1 ∧ field 0x30000000 28 4 ≠ 2)
    ∧ (field 0x2000022F 28 4 = 2 ∧ field 0x2000022F 24 4 = 0 ∧ field 0x2000022F 0 8 = (onLast 2 0).slot.val
      ∧ onLast 2 0 ∈ [onLast 2 0] ∧ onLast 2 0 ∉ [onLast 1 0]) := by decide +kernel

theorem witness_CollisionRule : 1 ∈ periods ∧ 64 ∈ periods ∧ 0 < 1 ∧ 63 < 64 := by decide

/-- An armed swap; a stream that lacks channel 1; a complete bank, in a stopped link and in a running one. -/
theorem witness_CommitByLinkState :
    ({ taking with sched.swapArmed := true } : State).Taking
    ∧ (let s := { takingWith (streamIn .opened (outShape .fill)) with sched.pending := outBank.take 1 }
      s.Taking ∧ s.sched.swapArmed = false ∧ s.sched.pending.names 0 = true ∧ s.lacksChannel s.sched.pending 0 = true
      ∧ ∀ j : StreamId, j < 0 → s.sched.pending.names j = true → s.lacksChannel s.sched.pending j = false)
    ∧ (let s := { takingWith (streamIn .opened (outShape .fill)) with sched.pending := outBank }
      s.Taking ∧ s.sched.swapArmed = false ∧ s.link.state = .unconfigured
      ∧ ∀ j : StreamId, s.sched.pending.names j = true → s.lacksChannel s.sched.pending j = false)
    ∧ (let s := { takingIn .running with sched.pending := [] }
      s.Taking ∧ s.sched.swapArmed = false ∧ s.link.state = .running
      ∧ ∀ j : StreamId, s.sched.pending.names j = true → s.lacksChannel s.sched.pending j = false) := by
  refine ⟨taking_with _ rfl rfl rfl, ⟨taking_with _ rfl rfl rfl, ?_⟩, ⟨taking_with _ rfl rfl rfl, ?_⟩,
    ⟨taking_with _ rfl rfl rfl, ?_⟩⟩ <;> decide +kernel

theorem witness_CancelCommitDisarms :
    (let s := { taking with sched.swapArmed := true, sched.commit := some (cmd 0x21), comp.reservations := 2 };
      s.Taking ∧ s.sched.swapArmed = true ∧ s.sched.commit = some (cmd 0x21))
    ∧ taking.Taking ∧ taking.sched.swapArmed = false :=
  ⟨⟨taking_with _ rfl rfl rfl, rfl, rfl⟩, taking_taking, rfl⟩

/-! ## Witnesses: sense lines -/

/-- Selects of 3 on every line, and of 4 on line 7. -/
theorem witness_SetSenseReplacesSelects :
    taking.Taking ∧ (∀ k : LineId, field (0x33333333 : Word) (4 * k.val) 4 ≤ 3)
    ∧ ∃ k : LineId, 3 < field (0x43333333 : Word) (4 * k.val) 4 :=
  ⟨taking_taking, by decide, 7, by decide⟩

/-- An edge that is selected and one that is not; out of READY; not RUNNING; RUNNING with the frame mark clear and set. -/
theorem witness_SenseEdgesReported :
    (∀ w : Watch, sensing.lines.watch = some w → ¬ (w.line = 2 ∧ w.edge = .rising))
    ∧ edgeSelected sensing.lines.sense[2] .rising ∧ ¬ edgeSelected sensing.lines.sense[2] .falling
    ∧ State.reset.host.engine ≠ .ready
    ∧ (let s := { sensing with link := linkIn .stopped .external }
      s.host.engine = .ready ∧ s.link.state ≠ .running ∧ edgeSelected s.lines.sense[2] .rising)
    ∧ sensing.host.engine = .ready ∧ sensing.link.state = .running ∧ sensing.lines.sense[2].frameMark = false
    ∧ sensing.link.config = some (config .external)
    ∧ ({ sensing with
        lines.sense := sensing.lines.sense.set 2 { sensing.lines.sense[2] with frameMark := true } } :
          State).lines.sense[2].frameMark = true := by
  unfold edgeSelected
  refine ⟨?_, ?_⟩
  · intro w h
    cases h
  · decide +kernel

/-- WAITING with the watch set; with a report to take, of an edge not selected and of a selected one; the report taken too late,
selected and not; made before the START that waits; taken in FAULT; no report. -/
theorem witness_TriggerStartsTheLink :
    let p : TriggerReport := { line := 2, edge := .rising, current := true }
    (let s := { ready with link := linkIn .waiting .external, lines.watch := some { line := 2, edge := .rising } };
      s.lines.watch = some { line := 2, edge := .rising })
    ∧ (let s := { ready with
        link := { linkIn .waiting .external with start := some (cmd 0x02) }, comp.reservations := 1, lines.reports := [p] }
      s.lines.reports = p :: [] ∧ p.current = true ∧ s.host.engine = .ready ∧ s.link.state = .waiting
      ∧ s.link.start = some (cmd 0x02) ∧ s.ret.window = [])
    ∧ (let s := { sensing with
        link := { linkIn .waiting .external with start := some (cmd 0x02) }, comp.reservations := 1, lines.reports := [p] }
      s.lines.reports = p :: [] ∧ p.current = true ∧ s.host.engine = .ready ∧ s.link.state = .waiting
      ∧ s.link.start = some (cmd 0x02) ∧ s.ret.window = [] ∧ edgeSelected s.lines.sense[p.line] p.edge)
    ∧ (let s := { sensing with link := linkIn .stopped .external, lines.reports := [p] }
      s.lines.reports = p :: [] ∧ s.host.engine = .ready ∧ s.link.state ≠ .waiting
      ∧ edgeSelected s.lines.sense[p.line] p.edge)
    ∧ (let q : TriggerReport := { p with current := false }
      let s := { sensing with link := linkIn .waiting .external, lines.reports := [q] }
      s.lines.reports = q :: [] ∧ q.current = false ∧ s.host.engine = .ready ∧ s.link.state = .waiting
      ∧ edgeSelected s.lines.sense[q.line] q.edge)
    ∧ (let s := { ready with lines.reports := [p] }
      s.lines.reports = p :: [] ∧ s.host.engine = .ready ∧ s.link.state ≠ .waiting
      ∧ ¬ edgeSelected s.lines.sense[p.line] p.edge)
    ∧ (let s := { sensing with host.engine := .fault, lines.reports := [p] }
      s.lines.reports = p :: [] ∧ s.host.engine ≠ .ready)
    ∧ ready.lines.reports = [] := by
  unfold edgeSelected
  decide +kernel

/-! ## Witnesses: block rings, data paths and the completion ring -/

/-- A read to issue; a stream with nothing posted; a good descriptor with the least count and an address multiple of 4. -/
theorem witness_DescriptorsAreFetched :
    ((posted.stream 0).shape = some (outShape .fill) ∧ posted.host.engine = .ready ∧ (posted.stream 0).state = .opened
      ∧ (posted.stream 0).list.length < 2 ∧ (posted.stream 0).fetch ≠ (posted.stream 0).producer
      ∧ (posted.stream 0).descriptorInFlight = false)
    ∧ ¬ ((fetching.stream 0).descriptorInFlight = false)
    ∧ (fetching.stream 0).shape = some (outShape .fill) ∧ fetching.host.engine = .ready
    ∧ fetching.inFlight (.descriptor 0) = true ∧ (fetching.stream 0).state = .opened
    ∧ field ((#v[4, 0, 1, 0] : Vector Word 4)[2]) 0 16 ≠ 0 ∧ (address 4 0).toNat % 4 = 0 := by decide +kernel

/-- The cursor of `reading`: 1 of the 4 samples fetched of the only entry. -/
theorem reading_cursor (inFlight : Option Nat) (port : List Request) : CursorAt ((reading inFlight port).stream 0) entry 1 [] :=
  ⟨rfl, [], rfl, by simp⟩

/-- A read to issue; one in flight; staging full; FAULTED, QUIESCING and CLOSED; the cursor absent; an in-stream; an answer that
covers the last of the block, and one that does not; a cursor at the first of two entries. -/
theorem witness_DataReadsFillStaging :
    (let s := reading none [];
      s.host.engine = .ready ∧ (s.stream 0).shape = some (outShape .fill) ∧ (s.stream 0).state = .opened
      ∧ 1 < entry.count ∧ (s.stream 0).dataInFlight = none ∧ (s.stream 0).samples.length < (outShape .fill).depth)
    ∧ (∀ inFlight port, CursorAt ((reading inFlight port).stream 0) entry 1 [])
    ∧ CursorAt { (reading none []).stream 0 with list := [entry, { entry with ringIndex := 1 }] } entry 1
        [{ entry with ringIndex := 1 }]
    ∧ (let s := reading (some 3) [{ requester := .data 0, address := 0x8004, transfer := .read 3 }]
      s.host.engine = .ready ∧ (s.stream 0).dataInFlight.isSome = true
      ∧ s.request (.data 0) = some { requester := .data 0, address := 0x8004, transfer := .read 3 }
      ∧ ([7, 8, 9] : List Word) ≠ [] ∧ 1 + ([7, 8, 9] : List Word).length = entry.count
      ∧ 1 + ([7, 8] : List Word).length < entry.count)
    ∧ (State.reset.host.engine ≠ .ready ∧ (ready.stream 0).state = .closed ∧ (failing.stream 0).state = .faulted
      ∧ (inQuiescing.stream 0).state = .quiescing ∧ (feeding.stream 0).cursor = none)
    ∧ ((outShape .fill).depth ≤ (List.replicate 8 (sample 0)).length ∧ (inShape .plain).kind.lane = .inLane) :=
  ⟨by decide +kernel, reading_cursor, ⟨rfl, [], rfl, by simp⟩, by decide +kernel, by decide +kernel, by decide⟩

/-- `storing` with the stream in the state given, a write of its next element in flight. -/
def storingIn (state : StreamState) (done : Nat) : State :=
  { storing done [element 1] (some 1) with
    streams := (storing done [element 1] (some 1)).streams.set 0
      { (storing done [element 1] (some 1)).stream 0 with state := state } }

/-- A write to issue; one in flight; nothing staged; FAULTED and QUIESCING; an answer that leaves one element of the block, in each
state, and one that fills it, in FAULTED and QUIESCING; a first frame already present. -/
theorem witness_DataWritesStoreElements :
    (let s := storing 2 [element 1] none;
      s.host.engine = .ready ∧ (s.stream 0).shape = some (inShape .tagged) ∧ (s.stream 0).state = .live
      ∧ 2 < entry.count ∧ (s.stream 0).dataInFlight = none
      ∧ (s.stream 0).elements ≠ [])
    ∧ ((storing 2 [] none).stream 0).elements = []
    ∧ (let s := storing 2 [element 1] (some 1)
      s.host.engine = .ready ∧ (s.stream 0).state = .live
      ∧ s.request (.data 0) = some { requester := .data 0, address := 0x8000, transfer := .write [0, 0] }
      ∧ (s.stream 0).dataInFlight = some 1 ∧ 1 ≤ (s.stream 0).elements.length ∧ 2 + 1 < entry.count
      ∧ ∀ x ∈ (s.stream 0).list, x.finished = none ∧ (x.ringIndex = 0 → x = { entry with done := 2 }))
    ∧ (∀ state ∈ [StreamState.faulted, .quiescing], ∀ done ∈ [2, 3], let s := storingIn state done
      s.host.engine = .ready ∧ (s.stream 0).shape = some (inShape .tagged) ∧ (s.stream 0).state = state
      ∧ s.request (.data 0) = some { requester := .data 0, address := 0x8000, transfer := .write [0, 0] }
      ∧ (s.stream 0).dataInFlight = some 1 ∧ 1 ≤ (s.stream 0).elements.length ∧ done + 1 ≤ entry.count
      ∧ ∀ x ∈ (s.stream 0).list, x.ringIndex = 0 → x = { entry with done := done })
    ∧ storedIn { entry with firstFrame := some 3 } [{ element 1 with condition := .damaged }] =
        { entry with firstFrame := some 3, lastFrame := some 5, done := 1, damaged := 1 }
    ∧ ({ element 1 with channel := 7 } : Element).channel < 8 := by decide +kernel

/-- The cursor of those states stands at their only entry. -/
theorem witness_DataWritesStoreElements_cursor :
    (∀ done elements inFlight, CursorAt ((storing done elements inFlight).stream 0) { entry with done := done } done [])
    ∧ ∀ state done, CursorAt ((storingIn state done).stream 0) { entry with done := done } done [] :=
  ⟨fun _ _ _ => ⟨rfl, [], rfl, by simp⟩, fun _ _ => ⟨rfl, [], rfl, by simp⟩⟩

/-- RUNNING with stream 0 a LIVE in-stream, the list given, the cursor at the entry given, and a write of its last element in flight. -/
def filling (list : List Entry) (e : Entry) : State :=
  { storing 3 [element 1] (some 1) with
    streams := (storing 3 [element 1] (some 1)).streams.set 0
      { (storing 3 [element 1] (some 1)).stream 0 with list := list, cursor := some { ringIndex := e.ringIndex, moved := e.done } } }

/-- A write that leaves one element of the second block, behind a head that waits. -/
theorem witness_DataWritesStoreElements_waitingHead :
    let head : Entry := { entry with finished := some .complete }
    let e : Entry := { next with done := 2 }
    let s := fullUp (filling [head, e] e)
    s.host.engine = .ready ∧ (s.stream 0).shape = some (inShape .tagged) ∧ CursorAt (s.stream 0) e 2 []
    ∧ s.request (.data 0) = some { requester := .data 0, address := 0x8000, transfer := .write [0, 0] }
    ∧ (s.stream 0).dataInFlight = some 1 ∧ 1 ≤ (s.stream 0).elements.length ∧ 2 + 1 < e.count
    ∧ e.finished = none ∧ (∀ x ∈ (s.stream 0).list, x.ringIndex = e.ringIndex → x = e) ∧ (s.stream 0).state = .live
    ∧ 32 ≤ s.placesInUse ∧ (s.stream 0).list = head :: [e] ∧ head.finished = some .complete ∧ head.report = true :=
  ⟨rfl, rfl, ⟨rfl, [_], rfl, by decide⟩, by decide +kernel, rfl, by decide +kernel, by decide, rfl, by decide +kernel, rfl,
    Nat.le_refl 32, rfl, rfl, rfl⟩

/-- The last element of the head, alone and with a block behind it, and of the block behind a head that waits: REPORT set and clear; a
place free, and none. -/
theorem witness_FilledBlockRetires :
    let e : Entry := { entry with done := 3 }
    let quiet : Entry := { e with report := false }
    let head : Entry := { entry with finished := some .complete }
    let second : Entry := { next with done := 3 }
    (∀ f ∈ [id, fullUp], ∀ x ∈ [e, quiet], ∀ behind ∈ [[], [next]],
      FillsBlock (f (filling (x :: behind) x)) 0 (inShape .tagged) [] x behind 1 ∧ ∀ y ∈ behind, y.finished = none)
    ∧ FillsBlock (fullUp (filling [head, second] second)) 0 (inShape .tagged) [head] second [] 1
    ∧ head.finished = some .complete ∧ head.report = true ∧ e.report = true ∧ quiet.report = false
    ∧ (filling [e] e).placesInUse < 32 ∧ ∀ s, 32 ≤ (fullUp s).placesInUse := by
  have write (s : State) (h : s.port = (storing 3 [element 1] (some 1)).port) :
      ∃ q ws, s.request (.data 0) = some q ∧ q.transfer = .write ws :=
    ⟨{ requester := .data 0, address := 0x8000, transfer := .write [0, 0] }, [0, 0], by
      unfold State.request
      rw [h]
      rfl, rfl⟩
  refine ⟨fun f hf x hx behind hb => ?_, ⟨rfl, rfl, rfl, .inr rfl, rfl, rfl, by decide, rfl, rfl, write _ rfl, rfl, by decide,
    by decide +kernel, rfl⟩, rfl, rfl, rfl, rfl, by decide +kernel, fun _ => Nat.le_refl 32⟩
  simp only [List.mem_cons, List.not_mem_nil, or_false] at hf hx hb
  rcases hf with rfl | rfl <;> rcases hx with rfl | rfl <;> rcases hb with rfl | rfl
  all_goals exact ⟨⟨rfl, rfl, rfl, .inr rfl, rfl, rfl, by decide, rfl, rfl, write _ rfl, rfl, by decide, by decide +kernel, rfl⟩,
    by decide⟩

/-- A write of two words at 0x40. -/
def twoWords : Request := { requester := .data 0, address := 0x40, transfer := .write [7, 0] }

theorem twoWords_bytes : twoWords.bytesWritten =
    [(0x40, 7), (0x41, 0), (0x42, 0), (0x43, 0), (0x44, 0), (0x45, 0), (0x46, 0), (0x47, 0)] := by decide +kernel

/-- A memory that holds its bytes. -/
theorem twoWords_memory : ∀ p ∈ twoWords.bytesWritten, (if p.1 = 0x40 then (7 : Byte) else 0) = p.2 := by
  rw [twoWords_bytes]
  simp

/-- A head to write with 7 unacknowledged of 8, and with 8; nothing held; a write in flight; each timer; the greatest ring index and
count; a memory that holds what a write wrote. -/
theorem witness_RingWritesAndHoldoff :
    let k : CompletionConfig := { base := 0x2000, size := 8, threshold := 2, holdoff := 50 }
    let s (n : Nat) : State := { ready with comp.holding := [.event (.eventLoss 1)], comp.unacknowledged := n }
    (∀ n, (s n).host.engine = .ready ∧ (s n).comp.config = some k ∧ (s n).comp.holding = .event (.eventLoss 1) :: [])
    ∧ (s 7).inFlight .completionUnit = false ∧ (s 7).comp.unacknowledged < k.size ∧ k.size ≤ (s 8).comp.unacknowledged
    ∧ ready.comp.holding = []
    ∧ (let t : State := { s 7 with
        comp.produce := 7, port := [{ requester := .completionUnit, address := 0x20E0, transfer := .write [] }] }
      t.inFlight .completionUnit = true ∧ t.comp.produce < k.size ∧ t.comp.holding ≠ [] ∧ t.comp.lossCount = 0
      ∧ t.proc.state ≠ .waitingPlace ∧ ∀ i : StreamId, (t.stream i).retirementWaiting = false)
    ∧ (unread.comp.timer = .running ∧ unread.host.engine = .ready ∧ ready.comp.timer ≠ .running)
    ∧ (cmd 0x10).ringIndex < 2 ^ 16 ∧ (∀ n, n < 2 ^ 16 → resultInRange (.freePool n))
    ∧ eventNumbers (.eventLoss 1) = [11, 0, 0, 1, 0]
    ∧ twoWords.transfer = .write [7, 0]
    ∧ ∃ memory : Addr → Byte, ∀ p ∈ twoWords.bytesWritten, memory p.1 = p.2 := by
  refine ⟨fun _ => ⟨rfl, rfl, rfl⟩, by decide +kernel, by decide +kernel, by decide +kernel, by decide +kernel, by decide +kernel,
    by decide +kernel, by decide, fun n h => by simpa only [resultInRange] using h, rfl, rfl,
    fun a => if a = 0x40 then 7 else 0, twoWords_memory⟩

/-- The head alone leaves with a served claim: nothing behind it, an entry not finished, and one finished that must report; a second
entry that is finished and silent leaves with it. -/
theorem gone_with_head (c : Stream) (h : c.drained = false) :
    GoneWithHead c [] [] 1 ∧ GoneWithHead c [entry] [entry] 1
    ∧ GoneWithHead c [{ entry with finished := some .complete }] [{ entry with finished := some .complete }] 1
    ∧ GoneWithHead c [{ entry with finished := some .complete, report := false }] [] 2 := by
  refine ⟨.inl ⟨rfl, rfl, fun _ _ e => ?_⟩, .inl ⟨rfl, rfl, fun _ _ e => ?_⟩, .inl ⟨rfl, rfl, fun _ _ e => ?_⟩,
    .inr ⟨_, rfl, rfl, rfl, rfl, h⟩⟩
  · cases e
  · cases e
    exact .inl rfl
  · cases e
    exact .inr ⟨_, rfl, .inl rfl⟩

/-- A full list whose head is being written, with each claim the first of those that stand; one place free of 32, and none. -/
theorem witness_FreedPlacesServeClaims :
    (∀ s ∈ [writingFull 2 .waitingPlace (waitingBlock []), writingFull 0 .waitingPlace (waitingBlock []),
        writingFull 0 .idle (waitingBlock [{ entry with ringIndex := 1, finished := some .complete, report := false }])],
      s.host.engine = .ready ∧ s.comp.config = some { base := 0x2000, size := 8, threshold := 2, holdoff := 50 }
      ∧ s.proc.ring = some { base := 0x1000, size := 8 } ∧ s.comp.holding ≠ [] ∧ s.inFlight .completionUnit = true
      ∧ s.comp.produce < 8 ∧ s.placesInUse ≤ 32
      ∧ ¬ (s.comp.lossCount = 0 ∧ s.proc.state ≠ .waitingPlace ∧ ∀ i : StreamId, (s.stream i).retirementWaiting = false))
    ∧ (let s : State := { ready with comp.holding := List.replicate 31 (.event (.eventLoss 1)) }
      (s.host.engine = .ready ∧ s.proc.ring = some { base := 0x1000, size := 8 } ∧ s.placesInUse = 31)
      ∧ 0 < ({ s with comp.lossCount := 1 } : State).comp.lossCount
      ∧ (let t := { s with proc.state := .waitingPlace, proc.producer := 1 }
        t.comp.lossCount = 0 ∧ t.proc.state = .waitingPlace)
      ∧ (let t := { s with streams := s.streams.set 1 (waitingBlock [entry]) }
        t.comp.lossCount = 0 ∧ t.proc.state ≠ .waitingPlace ∧ t.placesInUse < 32
        ∧ (∀ j : StreamId, j < 1 → (t.stream j).retirementWaiting = false)
        ∧ (t.stream 1).list = { entry with done := 4, finished := some .complete } :: [entry]
        ∧ (t.stream 1).drained = false))
    ∧ 32 ≤ (fullUp ready).placesInUse
    ∧ (ready.comp.lossCount = 0 ∧ ready.proc.state ≠ .waitingPlace
      ∧ ∀ i : StreamId, (ready.stream i).retirementWaiting = false) := by decide +kernel

/-! ## Witnesses: the invariants -/

/-- READY with an event posted: a step answers, and more than the reset values stands in the state. -/
def posting : State := { taking with pending := [.postEvent blank] }

theorem posting_steps : ∃ t, step posting = .next t := ⟨_, rfl⟩

/-- RUNNING with stream 0 LIVE, samples in staging, and the frame timer to run out. -/
def ticking : State := { feeding with pending := [.frameTimerExpiry] }

theorem ticking_steps : ∃ t, step ticking = .next t := ⟨_, rfl⟩

/-- READY and IDLE with the notify of a record waiting: the step in which the invariant of the looks is at stake. -/
def notifying : State := { ready with pending := [.notifyCommandRing 1] }

theorem witness_HoldingListKeepsItsBound :
    (PlacesInv posting ∧ ∃ t, step posting = .next t) ∧ (ClaimsInv ticking ∧ ∃ t, step ticking = .next t)
    ∧ PostedInv notifying ∧ ∃ t, step notifying = .next t := by
  refine ⟨⟨?_, posting_steps⟩, ⟨⟨feeding_streamsInv, by decide +kernel, by decide +kernel, ?_⟩, ticking_steps⟩, ?_, _, rfl⟩
  · unfold PlacesInv
    decide +kernel
  · unfold State.noClaim
    decide +kernel
  · unfold PostedInv
    decide +kernel

theorem witness_RingCountsAgree : RingInv posting ∧ ∃ t, step posting = .next t := by
  refine ⟨⟨?_, ?_, ?_, ?_, ?_⟩, posting_steps⟩
  · exact ⟨by decide, by decide, by decide, by decide, by decide, by decide⟩
  all_goals decide +kernel

theorem witness_StagingKeepsItsBounds : StagingInv ticking ∧ ∃ t, step ticking = .next t := by
  refine ⟨⟨by decide +kernel, by decide +kernel, ?_, by decide +kernel, ?_⟩, ticking_steps⟩
  · intro i
    by_cases h : i = 0
    · subst h
      exact ⟨rfl, by decide⟩
    · have hs : (ticking.stream i).shape = none := by
        revert i
        decide +kernel
      unfold Stream.stagingFits
      rw [hs]
      trivial
  · intro r hr
    cases hr

theorem witness_ReturnWindowStaysInOrder :
    let s := { awaiting with pending := [.deadlineExpiry] }
    WindowInv s ∧ ∃ t, step s = .next t := by
  refine ⟨?_, _, rfl⟩
  unfold WindowInv State.entryAnswered
  decide +kernel

theorem witness_RingIndicesStayInOrder : StreamsInv ticking ∧ ∃ t, step ticking = .next t := by
  refine ⟨streamsInv_of _ (outShape .repeat) ?_ (outShape_legal .repeat) ?_ ?_ ?_ ?_ ?_ ?_ ?_, ticking_steps⟩
  all_goals decide +kernel

/-- A drained stream whose last entry waits with the cursor at it, and the step that serves it. -/
theorem witness_RingIndicesStayInOrder_drained :
    let s := { setCursor (quiesced .close [{ entry with done := 2, finished := some .truncated }] true) 0 2 with
      pending := [.waitingRetirementServed] }
    StreamsInv s ∧ (s.stream 0).drained = true ∧ (s.stream 0).cursor = some { ringIndex := 0, moved := 2 }
    ∧ ∃ t, step s = .next t := by
  intro s
  have shut : ∀ i : StreamId, i ≠ 0 → (s.stream i).shape = none ∧ (s.stream i).drained = false := by decide +kernel
  refine ⟨⟨by decide +kernel, by decide +kernel, fun i h => ?_, fun i sh h => ?_⟩, rfl, rfl, _, rfl⟩
  · by_cases hi : i = 0
    · subst hi
      refine ⟨rfl, rfl, fun k hk => ?_⟩
      cases hk
      exact ⟨_, List.mem_singleton_self _, rfl⟩
    · simp [(shut i hi).2] at h
  · by_cases hi : i = 0
    · subst hi
      cases h
      refine ⟨outShape_legal .fill, by decide, by decide, by decide, by decide, fun k e he => ?_, fun n hn => by cases hn⟩
      cases k with
      | zero => cases he; rfl
      | succ k => cases he
    · simp [(shut i hi).1] at h

theorem witness_BanksStayAdmissible : BanksInv ticking ∧ ∃ t, step ticking = .next t := by
  refine ⟨banksInv_of _ ?_ ?_ (outBank_fits _ .repeat ?_) (emptyBank_fits _) rfl ?_ ?_, ticking_steps⟩
  · unfold NamesInv HeldInv State.quiescing
    decide +kernel
  all_goals decide +kernel

end Sys2Proof.Tests
end

/-!
LINK CONFIGURE (R22): the fields it reads, what it answers to each judgement, and the statement about it.
-/
namespace Sys2Proof.Machine

/-! ## Commands that end at once -/

/-- A command that ends without a result while the processor is IDLE leaves its COMMAND_DONE record and nothing else (R156, R158). -/
theorem endPlain_of_idle (s : State) (c : Command) (status : CommandStatus) (idle : s.proc.state = .idle) :
    s.endPlain c status = s.withDone c status .none := by
  have kept : { s.proc with state := .idle } = s.proc := by rw [← idle]
  calc s.endPlain c status
      = { s.withDone c status .none with proc := { s.proc with state := .idle } } := endCommand_eq s c status .none
    _ = s.withDone c status .none := by rw [kept]; rfl

/-- The taking of a record leaves the processor IDLE (R154). -/
@[simp] theorem afterTaking_proc_state (s : State) : s.afterTaking.proc.state = .idle := rfl

/-- The taking of a record leaves the link as it was (R154). -/
@[simp] theorem afterTaking_link (s : State) : s.afterTaking.link = s.link := rfl

/-! ## The four fields -/

/-- The ranges of R22 for the four fields of LINK CONFIGURE. -/
def LinkFieldsInRange (r : CommandRecord) : Prop :=
  80 ≤ r.w1.toNat ∧ r.w1.toNat ≤ 10000 ∧ (r.w2 = 0 ∨ r.w2 = 1) ∧ r.w3.toNat ≤ 255

/-- Fields in range are read as the configuration they name. -/
theorem linkConfigFields_of_inRange {r : CommandRecord} (h : LinkFieldsInRange r) :
    linkConfigFields r = some
      { period := r.w1.toNat, mode := if r.w2 = 1 then .internal else .external, threshold := r.w3.toNat,
        idleFill := r.w4 } := by
  obtain ⟨low, high, mode, threshold⟩ := h
  rw [linkConfigFields, if_pos ⟨low, high, threshold⟩]
  rcases mode with external | internal
  · simp [external]
  · simp [internal]

/-- A field out of range leaves no configuration to read. -/
theorem linkConfigFields_of_not_inRange {r : CommandRecord} (h : ¬ LinkFieldsInRange r) : linkConfigFields r = none := by
  unfold linkConfigFields
  split
  case isTrue numbers =>
    obtain ⟨low, high, threshold⟩ := numbers
    have mode : ¬ (r.w2 = 0 ∨ r.w2 = 1) := fun mode => h ⟨low, high, mode, threshold⟩
    rw [if_neg fun external => mode (.inl external), if_neg fun internal => mode (.inr internal)]
  case isFalse => rfl

/-! ## What LINK CONFIGURE answers -/

section
variable {s : State} {r : CommandRecord} {k : LinkConfig}

/-- A field out of range is BAD_PARAMETER, whatever the link state. -/
theorem linkConfigure_of_none (idle : s.proc.state = .idle) (c : Command) (fields : linkConfigFields r = none) :
    s.linkConfigure r c = s.withDone c .badParameter .none := by
  rw [State.linkConfigure, fields]
  exact endPlain_of_idle s c .badParameter idle

/-- In UNCONFIGURED or STOPPED the configuration is taken and the link is STOPPED. -/
theorem linkConfigure_of_stopped (idle : s.proc.state = .idle) (c : Command) (fields : linkConfigFields r = some k)
    (state : s.link.state = .unconfigured ∨ s.link.state = .stopped) :
    s.linkConfigure r c =
      ({ s with link.state := .stopped, link.config := some k } : State).withDone c .ok .none := by
  rw [State.linkConfigure, fields]
  exact (if_pos state).trans (endPlain_of_idle _ c .ok idle)

/-- In any other link state good fields are BAD_STATE. -/
theorem linkConfigure_of_not_stopped (idle : s.proc.state = .idle) (c : Command)
    (fields : linkConfigFields r = some k) (state : ¬ (s.link.state = .unconfigured ∨ s.link.state = .stopped)) :
    s.linkConfigure r c = s.withDone c .badState .none := by
  rw [State.linkConfigure, fields]
  exact (if_neg state).trans (endPlain_of_idle s c .badState idle)

/-- The row takes its record, acts, and the processor looks for the next one (R153 to R155). -/
theorem exec_linkConfigure_of_taking (taking : s.Taking) :
    exec (.linkConfigure r) s = .next (s.afterTaking.linkConfigure r (s.taken 0x01 r)).looked := by
  rw [← lookForCommand_eq_looked]
  exact takeCommand_of_taking taking 0x01 r (State.linkConfigure r)

end

/-- Settles O18: each clause takes one branch of R22, fields before link state, from the state after the taking. -/
theorem linkConfigureJudged : Obligations.LinkConfigureJudged := by
  intro s r valid taking (hvalid : valid ↔ LinkFieldsInRange r)
  have idle := afterTaking_proc_state s
  rw [exec_linkConfigure_of_taking taking]
  refine ⟨fun bad => ?badParameter, fun good state => ?badState, fun good state => ?ok⟩
  case badParameter =>
    have fields := linkConfigFields_of_not_inRange (mt hvalid.2 bad)
    rw [linkConfigure_of_none idle _ fields]
  case badState =>
    have fields := linkConfigFields_of_inRange (hvalid.1 good)
    have active : ¬ (s.afterTaking.link.state = .unconfigured ∨ s.afterTaking.link.state = .stopped) := by
      rcases state with waiting | running | stopping
      · simp [waiting]
      · simp [running]
      · simp [stopping]
    rw [linkConfigure_of_not_stopped idle _ fields active]
  case ok =>
    have fields := linkConfigFields_of_inRange (hvalid.1 good)
    rw [linkConfigure_of_stopped idle _ fields state]

end Sys2Proof.Machine

/-!
The collision rule (R64): the condition on periods and phases is the one of the Chinese remainder theorem, so it says that a frame
number exists in which both streams are due.
-/
namespace Sys2Proof.Machine

/-! ## Congruences and frame numbers -/

/-- Two phases have a common frame number exactly when they agree modulo the greatest common divisor of their periods, provided that
the frame numbers reach the least common multiple. -/
theorem exists_frame_of_phases_iff {p1 h1 p2 h2 : Nat} (phase1 : h1 < p1) (phase2 : h2 < p2)
    (reach : Nat.lcm p1 p2 ≤ 2 ^ 32) :
    (∃ f : FrameNo, f.toNat % p1 = h1 ∧ f.toNat % p2 = h2) ↔ h1 ≡ h2 [MOD Nat.gcd p1 p2] := by
  constructor
  case mp =>
    rintro ⟨f, due1, due2⟩
    have frame1 : f.toNat ≡ h1 [MOD p1] := due1 ▸ (Nat.mod_modEq _ _).symm
    have frame2 : f.toNat ≡ h2 [MOD p2] := due2 ▸ (Nat.mod_modEq _ _).symm
    exact (frame1.of_dvd (Nat.gcd_dvd_left p1 p2)).symm.trans (frame2.of_dvd (Nat.gcd_dvd_right p1 p2))
  case mpr =>
    intro agree
    obtain ⟨n, below, cong1, cong2⟩ : ∃ n < Nat.lcm p1 p2, n ≡ h1 [MOD p1] ∧ n ≡ h2 [MOD p2] :=
      ⟨Nat.chineseRemainder' agree,
        Nat.chineseRemainder'_lt_lcm agree (Nat.ne_zero_of_lt phase1) (Nat.ne_zero_of_lt phase2),
        (Nat.chineseRemainder' agree).property⟩
    have frame : (BitVec.ofNat 32 n).toNat = n := Nat.mod_eq_of_lt (below.trans_le reach)
    refine ⟨BitVec.ofNat 32 n, ?_, ?_⟩
    · rw [frame]
      exact Nat.mod_eq_of_modEq cong1 phase1
    · rw [frame]
      exact Nat.mod_eq_of_modEq cong2 phase2

/-! ## The periods of R44 -/

/-- Of two periods the smaller divides the larger, so it is their greatest common divisor. -/
theorem gcd_periods : ∀ p1 ∈ periods, ∀ p2 ∈ periods, Nat.gcd p1 p2 = min p1 p2 := by decide

/-- Two periods have a common multiple up to 64. -/
theorem lcm_periods_le : ∀ p1 ∈ periods, ∀ p2 ∈ periods, Nat.lcm p1 p2 ≤ 64 := by decide

/-- The collision rule is a congruence modulo the smaller period (R64). -/
theorem collide_iff_modEq (p1 h1 p2 h2 : Nat) : collide p1 h1 p2 h2 = true ↔ h1 ≡ h2 [MOD min p1 p2] :=
  decide_eq_true_iff

/-- Settles O42: the congruence of R64 is the solvability condition of the two congruences "due in frame `f`". -/
theorem collisionRule : Obligations.CollisionRule := by
  intro p1 mem1 p2 mem2 h1 h2 phase1 phase2
  have reach : Nat.lcm p1 p2 ≤ 2 ^ 32 := (lcm_periods_le p1 mem1 p2 mem2).trans (by decide)
  refine ⟨collide_iff_modEq p1 h1 p2 h2, ?commonFrame, ?itself, ?periodOne⟩
  case commonFrame =>
    rw [exists_frame_of_phases_iff phase1 phase2 reach, gcd_periods p1 mem1 p2 mem2]
    exact collide_iff_modEq p1 h1 p2 h2
  case itself => exact (collide_iff_modEq p1 h1 p1 h1).2 rfl
  case periodOne =>
    rintro rfl
    rw [collide_iff_modEq, min_eq_left (Nat.one_le_of_lt phase2)]
    exact Nat.modEq_one

end Sys2Proof.Machine

/-!
CANCEL COMMIT (R80): what it does to an armed swap and to the COMMIT outstanding for it, and the order of the two records.
-/
namespace Sys2Proof.Machine

/-- The taking of a record leaves the Schedule Unit as it was (R154). -/
@[simp] theorem afterTaking_sched (s : State) : s.afterTaking.sched = s.sched := rfl

section
variable {s : State} {r : CommandRecord} {c : Command}

/-- The COMMIT outstanding leaves the Schedule Unit, and its CANCELLED record enters (R80). -/
theorem cancelOutstanding_of_some (outstanding : s.sched.commit = some c) :
    s.cancelOutstanding = ({ s with sched.commit := none } : State).withDone c .cancelled .none := by
  rw [State.cancelOutstanding, outstanding]
  rfl

/-- With a swap armed the flag clears, and the COMMIT's record enters before the CANCEL's own (R80). -/
theorem cancelCommit_of_armed (idle : s.proc.state = .idle) (cancel : Command) (armed : s.sched.swapArmed = true)
    (outstanding : s.sched.commit = some c) :
    s.cancelCommit cancel =
      (({ s with sched.swapArmed := false, sched.commit := none } : State).withDone c .cancelled .none).withDone
        cancel .ok .none := by
  rw [State.cancelCommit, if_pos armed,
    cancelOutstanding_of_some (s := { s with sched.swapArmed := false }) outstanding]
  exact endPlain_of_idle _ cancel .ok idle

/-- With no swap armed the CANCEL completes NOT_ARMED and nothing else changes (R80). -/
theorem cancelCommit_of_not_armed (idle : s.proc.state = .idle) (cancel : Command) (clear : s.sched.swapArmed = false) :
    s.cancelCommit cancel = s.withDone cancel .notArmed .none := by
  rw [State.cancelCommit, if_neg (by simp [clear])]
  exact endPlain_of_idle s cancel .notArmed idle

/-- The row takes its record, acts, and the processor looks for the next one (R153 to R155). -/
theorem exec_cancelCommit_of_taking (taking : s.Taking) :
    exec (.cancelCommit r) s = .next (s.afterTaking.cancelCommit (s.taken 0x22 r)).looked := by
  rw [← lookForCommand_eq_looked]
  exact takeCommand_of_taking taking 0x22 r State.cancelCommit

end

/-- Settles O44: each clause takes one branch of R80, from the state after the taking. -/
theorem cancelCommitDisarms : Obligations.CancelCommitDisarms := by
  intro s r c taking
  have idle := afterTaking_proc_state s
  rw [exec_cancelCommit_of_taking taking]
  refine ⟨fun armed outstanding => ?armed, fun clear => ?clear⟩
  case armed => rw [cancelCommit_of_armed idle _ armed outstanding]
  case clear => rw [cancelCommit_of_not_armed idle _ clear]

end Sys2Proof.Machine

/-!
A notify of a block ring (R89): the judgement of its value against the ring and the descriptors taken, and the statement about it.
-/
namespace Sys2Proof.Machine

/-! ## Events presented in READY -/

/-- A 16-bit count stops at 65535 (R168). -/
theorem countUp_eq_min (n : Nat) : countUp n = min 65535 (n + 1) := by
  unfold countUp
  split
  case isTrue below => exact (min_eq_right below).symm
  case isFalse full => exact (min_eq_left (by omega)).symm

/-- In READY an event takes a free place or is counted as lost (R167, R168). -/
theorem present_of_ready {s : State} (ready : s.host.engine = .ready) (e : Event) : s.present e = s.afterEvent e := by
  unfold State.present State.afterEvent
  rw [if_pos ready, countUp_eq_min]
  rfl

/-! ## The judgement of R89 -/

/-- A stream with a shape has the ring size of that shape. -/
theorem ringSize_of_shape {c : Stream} {sh : Shape} (shape : c.shape = some sh) : c.ringSize = sh.ringSize := by
  rw [Stream.ringSize, shape]

/-- With the retire index inside the ring, a value withdraws a descriptor exactly when its distance from the retire index, around
the ring, is below the number of descriptors taken or being fetched (R89). -/
theorem withdraws_iff {c : Stream} {sh : Shape} (shape : c.shape = some sh) (inside : c.retire < sh.ringSize) (v : Nat) :
    c.withdraws v = true
      ↔ (v + (sh.ringSize - c.retire)) % sh.ringSize < c.list.length + (if c.descriptorInFlight then 1 else 0) := by
  rw [Stream.withdraws, decide_eq_true_iff, ringSize_of_shape shape, Nat.add_sub_assoc inside.le]
  rfl

section
variable {s : State} {i : StreamId} {v : BitVec 16}

/-- Out of READY a notify changes nothing (R174). -/
theorem takeBlockNotify_of_not_ready (notReady : s.host.engine ≠ .ready) : s.takeBlockNotify i v = s := if_neg notReady

/-- A notify of a CLOSED stream is stray (R89). -/
theorem takeBlockNotify_of_closed (ready : s.host.engine = .ready) (closed : (s.stream i).state = .closed) :
    s.takeBlockNotify i v = s.afterEvent (.strayNotify (2 + i.val) v) := by
  rw [State.takeBlockNotify, if_pos ready]
  exact (if_pos closed).trans (present_of_ready ready _)

/-- A value outside the ring, or one that withdraws a descriptor, is stray (R89). -/
theorem takeBlockNotify_of_unfit (ready : s.host.engine = .ready) (opened : (s.stream i).state ≠ .closed)
    (unfit : (s.stream i).ringSize ≤ v.toNat ∨ (s.stream i).withdraws v.toNat = true) :
    s.takeBlockNotify i v = s.afterEvent (.strayNotify (2 + i.val) v) := by
  rw [← present_of_ready ready, State.takeBlockNotify, if_pos ready]
  refine (if_neg opened).trans ?_
  by_cases outside : (s.stream i).ringSize ≤ v.toNat
  · exact if_pos outside
  · exact (if_neg outside).trans (if_pos (unfit.resolve_left outside))

/-- A value inside the ring that withdraws no descriptor becomes the producer (R89). -/
theorem takeBlockNotify_of_fit (ready : s.host.engine = .ready) (opened : (s.stream i).state ≠ .closed)
    (inside : v.toNat < (s.stream i).ringSize) (keeps : ¬ (s.stream i).withdraws v.toNat = true) :
    s.takeBlockNotify i v = s.setStream i { s.stream i with producer := v.toNat } := by
  rw [State.takeBlockNotify, if_pos ready]
  exact (if_neg opened).trans ((if_neg inside.not_ge).trans (if_neg keeps))

/-- With the reset pin released the row hands the notify to the stream's ring (R180, R189). -/
theorem exec_notifyBlockRing_of_released (released : s.host.resetHeld = false) :
    exec (.notifyBlockRing i v) s = .next (s.takeBlockNotify i v) := by
  calc exec (.notifyBlockRing i v) s = .next (s.ifReleased (s.takeBlockNotify i v)) := rfl
    _ = .next (s.takeBlockNotify i v) := by rw [State.ifReleased, if_neg (by simp [released])]

end

/-- Settles O13: each clause takes one row of the table of R89, the withdraw test in the form of `withdraws_iff`. -/
theorem blockRingNotify : Obligations.BlockRingNotify := by
  intro s i v released
  rw [exec_notifyBlockRing_of_released released]
  refine ⟨fun notReady => ?notReady, fun ready closed => ?closed, fun sh taken ready opened shape retire count => ?judged⟩
  case notReady => rw [takeBlockNotify_of_not_ready notReady]
  case closed => rw [takeBlockNotify_of_closed ready closed]
  case judged =>
    have size := ringSize_of_shape shape
    have withdraws := withdraws_iff shape retire v.toNat
    rw [← count] at withdraws
    refine ⟨fun unfit => ?unfit, fun inside keeps => ?fit⟩
    case unfit =>
      have unfit : (s.stream i).ringSize ≤ v.toNat ∨ (s.stream i).withdraws v.toNat = true := by
        rwa [size, withdraws]
      rw [takeBlockNotify_of_unfit ready opened unfit]
    case fit =>
      have keeps : ¬ (s.stream i).withdraws v.toNat = true := by rwa [withdraws, not_lt]
      rw [takeBlockNotify_of_fit ready opened (size ▸ inside) keeps, State.setStream]

end Sys2Proof.Machine

/-!
SET SENSE (R139): the code of a select, when all eight are in range, what replaces the selects held, and what the command answers.
-/
namespace Sys2Proof.Machine

/-! ## The codes of the edge selects -/

/-- The edge select of a code in range (12.4): `selectOf_of_le` ties it to the model's reading, and its value above 3 is never read. -/
def selectWithCode : Nat → EdgeSelect
  | 0 => .none
  | 1 => .rising
  | 2 => .falling
  | _ => .both

/-- A code in range is read as the select it names (12.4). -/
theorem selectOf_of_le {n : Nat} (inRange : n ≤ 3) : selectOf n = some (selectWithCode n) := by
  match n, inRange with
  | 0, _ => rfl
  | 1, _ => rfl
  | 2, _ => rfl
  | 3, _ => rfl

/-- A code above 3 leaves no select to read (12.4). -/
theorem selectOf_of_gt {n : Nat} (above : 3 < n) : selectOf n = none := by
  rw [selectOf, if_neg (by omega), if_neg (by omega), if_neg (by omega), if_neg (by omega)]

/-- A code is read exactly when it is in range. -/
theorem selectOf_isSome_iff (n : Nat) : (selectOf n).isSome = true ↔ n ≤ 3 := by
  rcases Nat.lt_or_ge 3 n with above | inRange
  · simp [selectOf_of_gt above, above]
  · simp [selectOf_of_le inRange, inRange]

/-- The record is valid exactly when each of its eight selects is in range (R139). -/
theorem selectsValid_iff (r : CommandRecord) :
    selectsValid r = true ↔ ∀ k : LineId, field r.w1 (4 * k.val) 4 ≤ 3 := by
  simp [selectsValid, selectField, selectOf_isSome_iff]

/-! ## What SET SENSE answers -/

/-- A command that ends with a result while the processor is IDLE leaves its COMMAND_DONE record and nothing else (R156, R158). -/
theorem endCommand_of_idle (s : State) (c : Command) (status : CommandStatus) (result : CommandResult)
    (idle : s.proc.state = .idle) : s.endCommand c status result = s.withDone c status result := by
  have kept : ({ s with proc.state := .idle } : State) = s := by rw [← idle]
  calc s.endCommand c status result
      = ({ s with proc.state := .idle } : State).withDone c status result := rfl
    _ = s.withDone c status result := by rw [kept]

/-- The taking of a record leaves the lines as they were (R154). -/
@[simp] theorem afterTaking_lines (s : State) : s.afterTaking.lines = s.lines := rfl

section
variable {s : State} {r : CommandRecord}

/-- A select in range replaces the one held on its line; the line's level, frame mark and suppressed count stay (R139). -/
theorem takeSelects_sense (k : LineId) (inRange : field r.w1 (4 * k.val) 4 ≤ 3) :
    (s.takeSelects r).lines.sense[k] =
      { s.lines.sense[k] with select := selectWithCode (field r.w1 (4 * k.val) 4) } := by
  simp [State.takeSelects, selectField, selectOf_of_le inRange]

/-- With all selects in range they replace those held, and the record carries the levels as they stand (R139). -/
theorem setSense_of_valid (idle : s.proc.state = .idle) (c : Command) (valid : selectsValid r = true) :
    s.setSense r c = (s.takeSelects r).withDone c .ok s.lineLevels := by
  rw [State.setSense, if_pos valid]
  exact endCommand_of_idle (s.takeSelects r) c .ok s.lineLevels idle

/-- With a select out of range the command is BAD_PARAMETER and no line changes (R139). -/
theorem setSense_of_invalid (idle : s.proc.state = .idle) (c : Command) (invalid : ¬ selectsValid r = true) :
    s.setSense r c = s.withDone c .badParameter .none := by
  rw [State.setSense, if_neg invalid]
  exact endPlain_of_idle s c .badParameter idle

/-- The row takes its record, acts, and the processor looks for the next one (R153 to R155). -/
theorem exec_setSense_of_taking (taking : s.Taking) :
    exec (.setSense r) s = .next (s.afterTaking.setSense r (s.taken 0x30 r)).looked := by
  rw [← lookForCommand_eq_looked]
  exact takeCommand_of_taking taking 0x30 r (State.setSense r)

end

/-- Settles O45: each clause takes one branch of R139, from the state after the taking; only the selects and the completion's record
come to that state. -/
theorem setSenseReplacesSelects : Obligations.SetSenseReplacesSelects := by
  intro s r taking
  have idle := afterTaking_proc_state s
  rw [exec_setSense_of_taking taking]
  refine ⟨fun ⟨k, above⟩ => ?badParameter, fun inRange => ?ok⟩
  case badParameter =>
    have invalid : ¬ selectsValid r = true := fun valid => above.not_ge ((selectsValid_iff r).1 valid k)
    rw [setSense_of_invalid idle _ invalid]
  case ok =>
    rw [setSense_of_valid idle _ ((selectsValid_iff r).2 inRange)]
    have selects (k : LineId) := takeSelects_sense (s := s.afterTaking) k (inRange k)
    exact ⟨_, rfl, selects, rfl, rfl, rfl, rfl, rfl⟩

end Sys2Proof.Machine

/-!
A notify of the command ring (R152): the judgement of its value against the ring and the record being read, the new producer with
the look of R153, and the statement about it.
-/
namespace Sys2Proof.Machine

/-- A processor with a ring has the size of that ring (R164). -/
theorem ringSize_of_ring {p : Processor} {ring : Ring} (held : p.ring = some ring) : p.ringSize = ring.size := by
  rw [Processor.ringSize, held]

section
variable {s : State} {v : BitVec 16}

/-- Out of READY a notify changes nothing (R152). -/
theorem takeCommandNotify_of_not_ready (notReady : s.host.engine ≠ .ready) : s.takeCommandNotify v = s := if_neg notReady

/-- A value outside the ring, or one that withdraws the record being read, is stray (R152). -/
theorem takeCommandNotify_of_unfit (ready : s.host.engine = .ready)
    (unfit : s.proc.ringSize ≤ v.toNat ∨ (s.proc.state = .reading ∧ v.toNat = s.proc.consumer)) :
    s.takeCommandNotify v = s.afterEvent (.strayNotify 0 v) := by
  rw [← present_of_ready ready, State.takeCommandNotify, if_pos ready]
  by_cases outside : s.proc.ringSize ≤ v.toNat
  · exact if_pos outside
  · exact (if_neg outside).trans (if_pos (unfit.resolve_left outside))

/-- A value inside the ring that leaves the record being read posted becomes the producer, and the processor looks for a record
(R152, R153). -/
theorem takeCommandNotify_of_fit (ready : s.host.engine = .ready) (inside : v.toNat < s.proc.ringSize)
    (keeps : s.proc.state = .reading → v.toNat ≠ s.proc.consumer) :
    s.takeCommandNotify v = ({ s with proc := s.proc.withProducer v.toNat } : State).looked := by
  rw [← lookForCommand_eq_looked, State.takeCommandNotify, if_pos ready, if_neg inside.not_ge, if_neg (not_and.2 keeps)]

/-- With the reset pin released the row hands the notify to the Command Processor (R180, R189). -/
theorem exec_notifyCommandRing_of_released (released : s.host.resetHeld = false) :
    exec (.notifyCommandRing v) s = .next (s.takeCommandNotify v) := by
  calc exec (.notifyCommandRing v) s = .next (s.ifReleased (s.takeCommandNotify v)) := rfl
    _ = .next (s.takeCommandNotify v) := by rw [State.ifReleased, if_neg (by simp [released])]

end

/-- Settles O11: each clause takes one branch of R152, judged against the size of the ring that the processor holds. -/
theorem commandRingNotify : Obligations.CommandRingNotify := by
  intro s v ring released
  rw [exec_notifyCommandRing_of_released released]
  refine ⟨fun notReady => ?notReady, fun ready held => ?judged⟩
  case notReady => rw [takeCommandNotify_of_not_ready notReady]
  case judged =>
    rw [← ringSize_of_ring held]
    refine ⟨fun unfit => ?unfit, fun inside keeps => ?fit⟩
    case unfit => rw [takeCommandNotify_of_unfit ready unfit]
    case fit => rw [takeCommandNotify_of_fit ready inside keeps, Processor.withProducer]

end Sys2Proof.Machine

/-!
POST EVENT (R160): the code it judges, the event it presents before its own record, and the result that says whether the event
entered.
-/
namespace Sys2Proof.Machine

/-! ## What an event presented comes to -/

/-- With a place free the event enters at the tail of the holding list (R167). -/
theorem afterEvent_of_freePlace {s : State} (free : s.freePlace = true) (e : Event) :
    s.afterEvent e = { s with comp.holding := s.comp.holding ++ [.event e] } := if_pos free

/-- With no place free the event is counted as lost (R168). -/
theorem afterEvent_of_not_freePlace {s : State} (full : s.freePlace = false) (e : Event) :
    s.afterEvent e = { s with comp.lossCount := min 65535 (s.comp.lossCount + 1) } := if_neg (by simp [full])

/-! ## What POST EVENT answers -/

/-- The taking of a record leaves the places as they were: its reservation stays until the record of its end (R154, R167). -/
@[simp] theorem afterTaking_freePlace (s : State) : s.afterTaking.freePlace = s.freePlace := rfl

section
variable {s : State} {r : CommandRecord}

/-- An event code above 255 is BAD_PARAMETER, and no event is presented (R160). -/
theorem postEvent_of_gt (idle : s.proc.state = .idle) (c : Command) (above : 255 < r.w1.toNat) :
    s.postEvent r c = s.withDone c .badParameter .none := by
  rw [State.postEvent, if_neg above.not_ge]
  exact endPlain_of_idle s c .badParameter idle

/-- In READY an event code in range is presented, and the command's record follows it with whether there was a place (R160). -/
theorem postEvent_of_le (ready : s.host.engine = .ready) (idle : s.proc.state = .idle) (c : Command)
    (inRange : r.w1.toNat ≤ 255) :
    s.postEvent r c =
      (s.afterEvent (.hostPosted r.w1.toNat r.w2)).withDone c .ok (.posted s.freePlace) := by
  have stillIdle : (s.present (.hostPosted r.w1.toNat r.w2)).proc.state = .idle := by rw [present_proc, idle]
  rw [State.postEvent, if_pos inRange, endCommand_of_idle _ c .ok _ stillIdle, present_of_ready ready]

/-- The row takes its record, acts, and the processor looks for the next one (R153 to R155). -/
theorem exec_postEvent_of_taking (taking : s.Taking) :
    exec (.postEvent r) s = .next (s.afterTaking.postEvent r (s.taken 0x40 r)).looked := by
  rw [← lookForCommand_eq_looked]
  exact takeCommand_of_taking taking 0x40 r (State.postEvent r)

end

/-- Settles O16: each clause takes one branch of R160 from the state after the taking; the event it presents takes the free place
or is counted as lost, and the record with the result comes behind it. -/
theorem postEventPresentsFirst : Obligations.PostEventPresentsFirst := by
  intro s r taking
  have idle := afterTaking_proc_state s
  have ready : s.afterTaking.host.engine = .ready := taking.1
  rw [exec_postEvent_of_taking taking]
  refine ⟨fun above => ?badParameter, fun inRange free => ?entered, fun inRange full => ?lost⟩
  case badParameter => rw [postEvent_of_gt idle _ above]
  case entered =>
    rw [← afterTaking_freePlace s] at free
    rw [postEvent_of_le ready idle _ inRange, free, afterEvent_of_freePlace free]
    rfl
  case lost =>
    rw [← afterTaking_freePlace s] at full
    rw [postEvent_of_le ready idle _ inRange, full, afterEvent_of_not_freePlace full]
    rfl

end Sys2Proof.Machine

/-!
The interrupt line (R176): its level in each engine state, what the ring's counters leave of its grounds, and the statement about
it.
-/
namespace Sys2Proof.Machine

/-! ## The level in each engine state -/

/-- In FAULT the line is asserted (R176). -/
theorem interruptLine_of_fault {s : State} (fault : s.host.engine = .fault) : s.interruptLine = true := by
  rw [State.interruptLine, fault]

/-- In READY the line is asserted by the threshold of the configuration held or by a holdoff timer that has run out (R176). -/
theorem interruptLine_iff_of_ready {s : State} (ready : s.host.engine = .ready) :
    s.interruptLine = true
      ↔ (∃ k, s.comp.config = some k ∧ k.threshold ≤ s.comp.unacknowledged) ∨ s.comp.timer = .expired := by
  rw [State.interruptLine, ready]
  cases config : s.comp.config with
  | none => simp
  | some k => simp

/-- In OFF, LOADING and RESETTING the line is deasserted (R176). -/
theorem interruptLine_of_not_fault_of_not_ready {s : State} (notFault : s.host.engine ≠ .fault)
    (notReady : s.host.engine ≠ .ready) : s.interruptLine = false := by
  rw [State.interruptLine]
  cases engine : s.host.engine with
  | fault => exact absurd engine notFault
  | ready => exact absurd engine notReady
  | off => rfl
  | loading => rfl
  | resetting => rfl

/-- The three grounds of the line, and no others (R176). -/
theorem interruptLine_iff (s : State) :
    s.interruptLine = true ↔
      s.host.engine = .fault
      ∨ (s.host.engine = .ready ∧ ∃ k, s.comp.config = some k ∧ k.threshold ≤ s.comp.unacknowledged)
      ∨ (s.host.engine = .ready ∧ s.comp.timer = .expired) := by
  by_cases fault : s.host.engine = .fault
  · simp [interruptLine_of_fault fault, fault]
  · by_cases ready : s.host.engine = .ready
    · simp [interruptLine_iff_of_ready ready, ready]
    · simp [interruptLine_of_not_fault_of_not_ready fault ready, fault, ready]

/-! ## What the ring's counters give -/

/-- Under a configuration the threshold is at least 1 and the ring holds no more than its size (R166, R183). -/
theorem threshold_pos_and_unacknowledged_le {c : Completion} {k : CompletionConfig} (counts : ringCountsAgree c)
    (held : c.config = some k) : 1 ≤ k.threshold ∧ c.unacknowledged ≤ k.size := by
  rw [ringCountsAgree, held] at counts
  obtain ⟨threshold, -, -, -, count, -⟩ := counts
  exact ⟨threshold, count⟩

/-- Settles O5: the grounds are those of `interruptLine_iff`; an empty ring meets no threshold and has a stopped timer, and a
threshold above the ring's size is never met. -/
theorem interruptLineLevel : Obligations.InterruptLineLevel := by
  refine ⟨interruptLine_iff, fun s ring ready empty => ?empty, fun s k ring ready held above => ?unreachable⟩
  all_goals obtain ⟨counts, -, -, timerNeedsRecord, -⟩ := ring
  case empty =>
    rw [← Bool.not_eq_true, interruptLine_iff_of_ready ready]
    rintro (⟨k, held, met⟩ | expired)
    · obtain ⟨threshold, -⟩ := threshold_pos_and_unacknowledged_le counts held
      omega
    · have waiting : 1 ≤ s.comp.unacknowledged := timerNeedsRecord (by simp [expired])
      omega
  case unreachable =>
    obtain ⟨-, count⟩ := threshold_pos_and_unacknowledged_le counts held
    have unmet : ¬ ∃ c, s.comp.config = some c ∧ c.threshold ≤ s.comp.unacknowledged := by
      rintro ⟨c, hasC, met⟩
      obtain rfl : k = c := Option.some.inj (held.symm.trans hasC)
      omega
    rw [interruptLine_iff_of_ready ready, or_iff_right unmet]

end Sys2Proof.Machine

/-!
An acknowledge (R173): the judgement of its value against the ring and the unacknowledged count, the move of the index, and the
statement about it.
-/
namespace Sys2Proof.Machine

/-- Under a configuration the completion ring has the size it gives (R183). -/
theorem ringSize_of_config {c : Completion} {k : CompletionConfig} (held : c.config = some k) : c.ringSize = k.size := by
  rw [Completion.ringSize, held]

/-- The holdoff timer at an acknowledge, by the count it leaves: STOPPED at 0, a fresh holdoff after an expiry, and otherwise as it
was (R175). -/
theorem atAcknowledge_eq (t : HoldoffTimer) (left : Nat) :
    t.atAcknowledge left = if left = 0 then .stopped else if t = .expired then .running else t := by
  cases t with
  | stopped => exact (ite_self _).symm
  | running => rfl
  | expired => rfl

section
variable {s : State} {v : BitVec 16}

/-- With the acknowledge index inside the ring, the advance is the distance of the value from it around the ring (R173). -/
theorem ackAdvance_eq {k : CompletionConfig} (held : s.comp.config = some k) (inside : s.comp.acknowledge < k.size) :
    s.ackAdvance v = (v.toNat + (k.size - s.comp.acknowledge)) % k.size := by
  rw [State.ackAdvance, ringSize_of_config held, Nat.add_sub_assoc inside.le]

/-- Out of READY an acknowledge changes nothing (R173). -/
theorem takeAcknowledge_of_not_ready (notReady : s.host.engine ≠ .ready) : s.takeAcknowledge v = s := if_neg notReady

/-- A value outside the ring is stray (R173). -/
theorem takeAcknowledge_of_outside (ready : s.host.engine = .ready) (outside : s.comp.ringSize ≤ v.toNat) :
    s.takeAcknowledge v = s.afterEvent (.strayNotify 1 v) := by
  rw [← present_of_ready ready, State.takeAcknowledge, if_pos ready, if_pos outside, State.stray]

/-- A value inside the ring that advances by 0 has no effect (R173). -/
theorem takeAcknowledge_of_zero (ready : s.host.engine = .ready) (inside : v.toNat < s.comp.ringSize)
    (still : s.ackAdvance v = 0) : s.takeAcknowledge v = s := by
  rw [State.takeAcknowledge, if_pos ready, if_neg inside.not_ge, if_pos still]

/-- A value that advances past the records written is stray (R173). -/
theorem takeAcknowledge_of_beyond (ready : s.host.engine = .ready) (inside : v.toNat < s.comp.ringSize)
    (beyond : s.comp.unacknowledged < s.ackAdvance v) : s.takeAcknowledge v = s.afterEvent (.strayNotify 1 v) := by
  rw [← present_of_ready ready, State.takeAcknowledge, if_pos ready, if_neg inside.not_ge, if_neg (by omega), if_pos beyond,
    State.stray]

/-- A value that advances over records written moves the index and the count, and the holdoff timer follows (R173, R175). -/
theorem takeAcknowledge_of_within (ready : s.host.engine = .ready) (inside : v.toNat < s.comp.ringSize)
    (moves : 0 < s.ackAdvance v) (within : s.ackAdvance v ≤ s.comp.unacknowledged) :
    s.takeAcknowledge v =
      { s with
        comp.acknowledge := v.toNat
        comp.unacknowledged := s.comp.unacknowledged - s.ackAdvance v
        comp.timer := s.comp.timer.atAcknowledge (s.comp.unacknowledged - s.ackAdvance v) } := by
  rw [State.takeAcknowledge, if_pos ready, if_neg inside.not_ge, if_neg moves.ne', if_neg within.not_gt]

/-- With the reset pin released a host write takes effect (R189). -/
theorem ifReleased_of_released (released : s.host.resetHeld = false) (t : State) : s.ifReleased t = t :=
  if_neg (by simp [released])

/-- With the reset pin released the row hands the notify to the Completion Unit (R180, R189). -/
theorem exec_acknowledge_of_released (released : s.host.resetHeld = false) :
    exec (.acknowledge v) s = .next (s.takeAcknowledge v) := by
  calc exec (.acknowledge v) s = .next (s.ifReleased (s.takeAcknowledge v)) := rfl
    _ = .next (s.takeAcknowledge v) := by rw [ifReleased_of_released released]

end

/-- Settles O12: each clause takes one row of R173, the advance in the form of `ackAdvance_eq`; the count left is 0 exactly when the
advance is the whole count. -/
theorem acknowledgeMovesTheIndex : Obligations.AcknowledgeMovesTheIndex := by
  intro s v released
  rw [exec_acknowledge_of_released released]
  refine ⟨fun notReady => ?notReady, fun k advance ready held index isAdvance => ?judged⟩
  case notReady => rw [takeAcknowledge_of_not_ready notReady]
  case judged =>
    rw [← ackAdvance_eq held index] at isAdvance
    rw [← ringSize_of_config held, isAdvance]
    refine ⟨fun outside => ?outside, fun inside still => ?still, fun inside beyond => ?beyond,
      fun inside moves within => ?within⟩
    case outside => rw [takeAcknowledge_of_outside ready outside]
    case still => rw [takeAcknowledge_of_zero ready inside still]
    case beyond => rw [takeAcknowledge_of_beyond ready inside beyond]
    case within =>
      have leftNone : s.comp.unacknowledged - s.ackAdvance v = 0 ↔ s.comp.unacknowledged = s.ackAdvance v := by omega
      simp only [takeAcknowledge_of_within ready inside moves within, atAcknowledge_eq, leftNone]

end Sys2Proof.Machine

/-!
What a command can do, said once: `Acts s t` lists the changes that the rows make, each under the conditions that its row has looked
at, and every command that answers a next state makes one of them. An invariant is then kept by every step when it is kept by each
change of the list.
-/
namespace Sys2Proof.Machine

/-- What the owner of a taken record `c` can make of the state after the taking: it ends the command, makes it outstanding, or holds
it (R155 to R157). -/
inductive Owned (c : Command) (s : State) : State → Prop
  | ends (status : CommandStatus) (result : CommandResult) : Owned c s (s.endCommand c status result)
  | configures (k : LinkConfig) (state : s.link.state = .unconfigured ∨ s.link.state = .stopped) :
      Owned c s (({ s with link.config := some k, link.state := .stopped } : State).endCommand c .ok .none)
  | startsNow (state : s.link.state = .stopped) : Owned c s (s.startNow c)
  | startsWaiting (w : Watch) (timeout : Option Nat) (state : s.link.state = .stopped) : Owned c s (s.startWaiting c w timeout)
  | stopsWaiting (state : s.link.state = .waiting) :
      Owned c s (({ s with link.stopCause := some .host, link.stop := some c } : State).enterStopped .cancelled)
  | stopsRunning (state : s.link.state = .running) :
      Owned c s
        ({ s with
          link.state := .stopping
          link.stopCause := some .host
          link.frameTimer := false
          link.stop := some c } : State).stopWhenDone
  | joinsStop (state : s.link.state = .stopping) (alone : s.link.stop = none) : Owned c s { s with link.stop := some c }
  | opens (r : CommandRecord) (i : StreamId) (sh : Shape) (marker : Option (MarkerId × Nat)) (shape : shapeFields r = some sh)
      (closed : (s.stream i).state = .closed) (unbound : s.markerTaken marker = false) (pool : sh.depth ≤ s.freePool) :
      Owned c s (s.acceptOpen c i sh marker)
  | closes (i : StreamId) (opened : (s.stream i).state ≠ .closed) (unnamed : s.inSchedule i = false) :
      Owned c s (s.beginQuiesce c i .close)
  | restarts (i : StreamId) (n : Nat) (opened : (s.stream i).state ≠ .closed) (inside : n < (s.stream i).ringSize) :
      Owned c s (s.beginQuiesce c i (.restart n))
  | queries (i : StreamId) (a : Addr) : Owned c s ((s.issue .streamTable a (.write (s.snapshot i))).hold c)
  | holdsLoad (a : Addr) (count : Nat) (basis : Basis) (clear : s.sched.swapArmed = false) (mark : s.sched.retiring = true) :
      Owned c s (({ s with sched.load := .held a count basis } : State).hold c)
  | performsLoad (a : Addr) (count : Nat) (basis : Basis) (clear : s.sched.swapArmed = false) :
      Owned c s ((s.performLoad a count basis).hold c)
  | commits (result : CommandResult) (clear : s.sched.swapArmed = false) (complete : s.lowestLacking s.sched.pending = none)
      (stopped : s.link.isStopped = true) : Owned c s (s.swap.endCommand c .ok result)
  | armsSwap (clear : s.sched.swapArmed = false) (complete : s.lowestLacking s.sched.pending = none) (active : s.link.isStopped = false) :
      Owned c s { s with sched.swapArmed := true, sched.commit := some c }
  | cancels (armed : s.sched.swapArmed = true) :
      Owned c s (({ s with sched.swapArmed := false } : State).cancelOutstanding.endCommand c .ok .none)
  | selects (r : CommandRecord) (result : CommandResult) : Owned c s ((s.takeSelects r).endCommand c .ok result)
  | posts (e : Event) (result : CommandResult) : Owned c s ((s.present e).endCommand c .ok result)
  | armsCorrupt (state : s.link.state = .running) : Owned c s (({ s with link.corruptOut := true } : State).endCommand c .ok .none)
  | armsDrop (state : s.link.state = .running) : Owned c s (({ s with link.dropReturn := true } : State).endCommand c .ok .none)

/-- The state in which a sense line has its new level and nothing else has happened (R138). -/
def State.withLevel (s : State) (k : LineId) (e : Edge) : State :=
  s.setSenseLine k { s.lines.sense[k] with level := edgeLevel e }

/-- The changes that the rows of the link, of its returns and of the lines make. -/
inductive LinkActs (s : State) : State → Prop
  | startsFrame (ready : s.host.engine = .ready) (running : s.link.state = .running) (timer : s.link.frameTimer = true) :
      LinkActs s (s.frameStart (s.link.frame + 1))
  | endsTransmission (sending : s.link.transmitting = true) : LinkActs s s.endTransmission
  | arrives (words : List Word) (ragged : Bool) (taken : s.takesArrivals = true) : LinkActs s (s.takeArrival words ragged)
  | loops (words : List Word) (taken : s.takesArrivals = true) (sent : s.link.outFrame = some words) :
      LinkActs s (({ s with link.loopDue := false } : State).takeArrival words false)
  | misses (taken : s.takesArrivals = true) : LinkActs s s.resolveOldestMissing
  | stops (ready : s.host.engine = .ready) : LinkActs s s.stopWhenDone
  | timesOut (ready : s.host.engine = .ready) (waiting : s.link.state = .waiting) : LinkActs s (s.enterStopped .timeout)
  | changesLevel (k : LineId) (e : Edge) : LinkActs s (s.withLevel k e)
  | triggers (k : LineId) (e : Edge) : LinkActs s ((s.withLevel k e).reportTrigger k e)
  | selects (k : LineId) (e : Edge) (micros : Nat) : LinkActs s ((s.withLevel k e).selectedEdge k e micros)
  | takesReport (p : TriggerReport) (rest : List TriggerReport) (first : s.lines.reports = p :: rest) :
      LinkActs s (({ s with lines.reports := rest } : State).takeReport p)

/-- The changes that the rows of one stream make, but for the ends of a CLOSE and of a RESTART. -/
inductive StreamActs (s : State) : State → Prop
  | notifiesBlock (i : StreamId) (v : BitVec 16) : StreamActs s (s.takeBlockNotify i v)
  | readsDescriptor (i : StreamId) (sh : Shape) (ready : s.host.engine = .ready) (wants : (s.stream i).wantsDescriptor = true)
      (shape : (s.stream i).shape = some sh) : StreamActs s (s.readDescriptor i sh)
  | answersDescriptor (i : StreamId) (running : s.host.engine ≠ .resetting) :
      StreamActs s ((s.answered (.descriptor i)).descriptorAnswered i)
  | takesDescriptor (i : StreamId) (words : Vector Word 4) (ready : s.host.engine = .ready) (may : (s.stream i).mayIssue = true)
      (asked : s.inFlight (.descriptor i) = true) :
      StreamActs s (((s.answered (.descriptor i)).descriptorAnswered i).judgeDescriptor i words)
  | failsDescriptor (i : StreamId) (n : Nat) (ready : s.host.engine = .ready) :
      StreamActs s (((s.answered (.descriptor i)).descriptorAnswered i).faultStream i .readError n)
  | readsData (i : StreamId) : StreamActs s (s.tryRead i)
  | answersData (i : StreamId) (running : s.host.engine ≠ .resetting) : StreamActs s ((s.answered (.data i)).dataAnswered i)
  | takesData (i : StreamId) (samples : List Word) (q : Request) (ready : s.host.engine = .ready)
      (may : (s.stream i).mayIssue = true) (asked : q ∈ s.port) (tag : q.requester = .data i)
      (read : q.transfer = .read samples.length) :
      StreamActs s (((s.answered (.data i)).dataAnswered i).setStream i
        ((((s.answered (.data i)).dataAnswered i).stream i).takeSamples samples))
  | failsData (i : StreamId) (cause : StreamFault) (ready : s.host.engine = .ready) :
      StreamActs s (((s.answered (.data i)).dataAnswered i).dataFailed i cause)
  | writesData (i : StreamId) : StreamActs s (s.tryWrite i)
  | storesData (i : StreamId) (n : Nat) (ready : s.host.engine = .ready) (writing : (s.stream i).dataInFlight = some n) :
      StreamActs s (((s.answered (.data i)).dataAnswered i).storeElements i n)
  | drains (i : StreamId) (ready : s.host.engine = .ready) (done : (s.stream i).drainDone = true) : StreamActs s (s.finishDrain i)
  | servesRetirement (i : StreamId) (place : s.placeToHand = true) (first : s.waitingStream = some i) : StreamActs s (s.serveRetirement i)

/-- The changes that a command can make to a state. -/
inductive Acts (s : State) : State → Prop
  | nothing : Acts s s
  | discards (tag : Requester) (resetting : s.host.engine = .resetting) : Acts s (s.discardInResetting tag)
  | answers (tag : Requester) (running : s.host.engine ≠ .resetting) : Acts s (s.answered tag)
  | writesHost (h : HostWindow) (engine : h.engine = s.host.engine) : Acts s { s with host := h }
  | loads (off : s.host.engine = .off) :
      Acts s (({ s with host.engine := .loading } : State).issue .hostWindow s.controlBase (.read 8))
  | faultsAtEnable (cause : FaultCause) (off : s.host.engine = .off) : Acts s (s.enterFault cause)
  | faults (tag : Requester) (cause : FaultCause) (active : s.host.engine = .loading ∨ s.host.engine = .ready) :
      Acts s ((s.answered tag).enterFault cause)
  | resets (active : s.host.engine ≠ .resetting) : Acts s s.enterResetting.offWhenQuiet
  | hardResets (source : ResetSource) (levels : BitVec 8) {t : State} (after : execHardReset source levels s = .next t) : Acts s t
  | readies (words : Vector Word 8) (ring : Ring) (config : CompletionConfig) (loading : s.host.engine = .loading)
      (fields : controlFields words = some (ring, config)) : Acts s ((s.answered .hostWindow).enterReady ring config)
  | notifiesCommand (v : BitVec 16) : Acts s (s.takeCommandNotify v)
  | acknowledges (v : BitVec 16) : Acts s (s.takeAcknowledge v)
  | notifiesNoRing (n : Nat) (v : BitVec 16) : Acts s (s.stray n v)
  | looks : Acts s s.lookForCommand
  | takes (c : Command) {t : State} (taking : s.Taking) (owned : Owned c s.afterTaking t) : Acts s t.lookForCommand
  | performsLoad (a : Addr) (count : Nat) (basis : Basis) (ready : s.host.engine = .ready) (clear : s.sched.retiring = false)
      (held : s.sched.load = .held a count basis) : Acts s (s.performLoad a count basis)
  | takesChanges (c : Command) (working : Bank) (a : Addr) (count next : Nat) (entries : List Word)
      (ready : s.host.engine = .ready) (holds : s.proc.state = .held c) (load : s.sched.load = .performing working a count next) :
      Acts s ((s.answered .scheduleUnit).takeChanges c working a count next entries)
  | failsLoad (c : Command) (result : CommandResult) (ready : s.host.engine = .ready) (holds : s.proc.state = .held c)
      (load : s.sched.load ≠ .none) : Acts s ((s.answered .scheduleUnit).endLoad c .readError result)
  | endsQuery (c : Command) (status : CommandStatus) (ready : s.host.engine = .ready) (holds : s.proc.state = .held c)
      (written : s.inFlight .streamTable = true) : Acts s ((s.answered .streamTable).endHeld c status .none)
  | closes (i : StreamId) (c : Command) (ready : s.host.engine = .ready) (finished : (s.stream i).quiesceOver = true)
      (operation : (s.stream i).pendingOperation = some .close) (holds : s.proc.state = .held c) : Acts s (s.endClose c i)
  | restarts (i : StreamId) (c : Command) (n : Nat) (ready : s.host.engine = .ready) (finished : (s.stream i).quiesceOver = true)
      (operation : (s.stream i).pendingOperation = some (.restart n)) (holds : s.proc.state = .held c) : Acts s (s.endRestart c i n)
  | writesRing : Acts s s.tryRingWrite
  | writtenRing (ready : s.host.engine = .ready) (written : s.inFlight .completionUnit = true) :
      Acts s ({ s.answered .completionUnit with comp := s.comp.recordWritten } : State).handOn
  | servesLoss (place : s.placeToHand = true) (lost : 0 < s.comp.lossCount) : Acts s s.enterEventLoss
  | servesCommand (place : s.placeToHand = true) (waiting : s.proc.state = .waitingPlace) : Acts s s.readCommand
  | expiresHoldoff (ready : s.host.engine = .ready) (running : s.comp.timer = .running) : Acts s { s with comp.timer := .expired }
  | link {t : State} (acts : LinkActs s t) : Acts s t
  | stream {t : State} (acts : StreamActs s t) : Acts s t

/-! ## The owners of the commands -/

section
variable (c : Command) (s : State)

theorem owned_linkConfigure (r : CommandRecord) : Owned c s (s.linkConfigure r c) := by
  unfold State.linkConfigure
  split
  · exact .ends _ _
  · next k _ =>
    split
    · next state => exact .configures k state
    · exact .ends _ _

/-- A START that its state refuses ends at once (R25). -/
theorem owned_refuseStart : Owned c s (s.refuseStart c) := by
  unfold State.refuseStart
  split
  · exact .ends _ _
  · exact .ends _ _

theorem owned_linkStart (r : CommandRecord) : Owned c s (s.linkStart r c) := by
  unfold State.linkStart
  split
  · split
    · exact .ends _ _
    · next w _ =>
      split
      · next state => exact .startsWaiting w _ state
      · exact owned_refuseStart c s
  · split
    · next state => exact .startsNow state
    · exact owned_refuseStart c s

theorem owned_linkStop : Owned c s (s.linkStop c) := by
  unfold State.linkStop
  split
  · exact .ends _ _
  · exact .ends _ _
  · next state => exact .stopsWaiting state
  · next state => exact .stopsRunning state
  · next state =>
    split
    · next alone => exact .joinsStop state alone
    · exact .ends _ _

theorem owned_openStream (r : CommandRecord) : Owned c s (s.openStream r c) := by
  unfold State.openStream
  split
  · next i sh marker _ shape _ =>
    unfold State.judgeOpen
    split
    · exact .ends _ _
    · next closed =>
      split
      · exact .ends _ _
      · next unbound =>
        split
        · exact .ends _ _
        · next pool =>
          exact .opens r i sh marker shape (not_not.1 closed) (Bool.eq_false_iff.2 unbound) (not_lt.1 pool)
  · exact .ends _ _

theorem owned_closeStream (r : CommandRecord) : Owned c s (s.closeStream r c) := by
  unfold State.closeStream
  split
  · exact .ends _ _
  · next i _ =>
    split
    · exact .ends _ _
    · next opened =>
      split
      · exact .ends _ _
      · next unnamed => exact .closes i opened (Bool.eq_false_iff.2 unnamed)

theorem owned_restartStream (r : CommandRecord) : Owned c s (s.restartStream r c) := by
  unfold State.restartStream
  split
  · exact .ends _ _
  · next i n _ =>
    split
    · exact .ends _ _
    · next opened =>
      split
      · exact .ends _ _
      · next inside => exact .restarts i n opened (not_le.1 inside)

theorem owned_queryStream (r : CommandRecord) : Owned c s (s.queryStream r c) := by
  unfold State.queryStream
  split
  · exact .ends _ _
  · next i a _ => exact .queries i a

theorem owned_loadSchedule (r : CommandRecord) : Owned c s (s.loadSchedule r c) := by
  unfold State.loadSchedule
  split
  · exact .ends _ _
  · next a count basis _ =>
    split
    · exact .ends _ _
    · next clear =>
      have clear := Bool.eq_false_iff.2 clear
      split
      · next mark => exact .holdsLoad a count basis clear mark
      · exact .performsLoad a count basis clear

theorem owned_commitSchedule : Owned c s (s.commitSchedule c) := by
  unfold State.commitSchedule
  split
  · exact .ends _ _
  · next clear =>
    have clear := Bool.eq_false_iff.2 clear
    split
    · exact .ends _ _
    · next complete =>
      unfold State.acceptCommit
      split
      · next stopped => exact .commits _ clear complete stopped
      · next active => exact .armsSwap clear complete (Bool.eq_false_iff.2 active)

theorem owned_cancelCommit : Owned c s (s.cancelCommit c) := by
  unfold State.cancelCommit
  split
  · next armed => exact .cancels armed
  · exact .ends _ _

theorem owned_setSense (r : CommandRecord) : Owned c s (s.setSense r c) := by
  unfold State.setSense
  split
  · exact .selects r _
  · exact .ends _ _

theorem owned_postEvent (r : CommandRecord) : Owned c s (s.postEvent r c) := by
  unfold State.postEvent
  split
  · exact .posts _ _
  · exact .ends _ _

theorem owned_injectFault (r : CommandRecord) : Owned c s (s.injectFault r c) := by
  unfold State.injectFault
  split
  · split
    · exact .ends _ _
    · next state =>
      split
      · exact .ends _ _
      · exact .armsCorrupt (not_not.1 state)
  · split
    · split
      · exact .ends _ _
      · next state =>
        split
        · exact .ends _ _
        · exact .armsDrop (not_not.1 state)
    · exact .ends _ _

end

section
variable {s t : State}

/-! ## Writes of the host -/

/-- What ENABLE does is one of the changes (R183). -/
theorem acts_takeEnable (s : State) : Acts s s.takeEnable := by
  unfold State.takeEnable
  split
  · next off =>
    split
    · exact .loads off
    · exact .faultsAtEnable _ off
  · exact .nothing

/-- What RESET does is one of the changes (R187). -/
theorem acts_takeReset (s : State) : Acts s s.takeReset := by
  unfold State.takeReset
  split
  · exact .nothing
  · next active => exact .resets active

/-- What a notify does is one of the changes, whatever its selector (R180). -/
theorem acts_takeNotify (s : State) (n : Nat) (v : BitVec 16) : Acts s (s.takeNotify n v) := by
  unfold State.takeNotify
  split
  · exact .notifiesCommand v
  · split
    · exact .acknowledges v
    · split
      · exact .stream (.notifiesBlock _ v)
      · unfold State.takeNoRingNotify
        split
        · exact .notifiesNoRing n v
        · exact .nothing

/-- What a full write to the register window does is one of the changes (R179). -/
theorem acts_writeRegister (s : State) (reg : Register) (value : Word) : Acts s (s.writeRegister reg value) := by
  cases reg with
  | baseLow => exact .writesHost { s.host with baseLow := value } rfl
  | baseHigh => exact .writesHost { s.host with baseHigh := value } rfl
  | control =>
    unfold State.writeRegister
    dsimp only
    split
    · exact acts_takeReset s
    · split
      · exact acts_takeEnable s
      · exact .nothing
  | status => exact .nothing
  | notify => exact acts_takeNotify s _ _

/-- While the reset pin is held a write changes nothing (R189). -/
theorem acts_ifReleased (h : Acts s t) : Acts s (s.ifReleased t) := by
  unfold State.ifReleased
  split
  · exact .nothing
  · exact h

/-! ## Answers of the host bus -/

/-- An answer is one of the changes when what its block makes of it is one, out of RESETTING (R182, R188). -/
theorem acts_onAnswer {tag : Requester} {k : Request → State → State} (h : s.onAnswer tag k = .next t)
    (block : ∀ q ∈ s.port, q.requester = tag → s.host.engine ≠ .resetting → Acts s (k q (s.answered tag))) : Acts s t := by
  rcases onAnswer_cases s tag k with ⟨-, e⟩ | ⟨-, resetting, e⟩ | ⟨q, mem, name, running, e⟩
  · cases e.symm.trans h; exact .nothing
  · cases e.symm.trans h; exact .discards tag resetting
  · cases e.symm.trans h; exact block q mem name running

/-- A taken record is its owner's, and any other answer to a command read is discarded (R154). -/
theorem acts_takeCommand {code : BitVec 8} {r : CommandRecord} {owner : Command → State → State}
    (named : ∀ (c : Command) (s : State), Owned c s (owner c s)) (h : s.takeCommand code r owner = .next t) : Acts s t := by
  rcases takeCommand_cases h with ⟨taking, rfl⟩ | ⟨resetting, rfl⟩ | ⟨-, rfl⟩ | ⟨-, running, rfl⟩
  · exact .takes _ taking (named _ _)
  · exact .discards _ resetting
  · exact .nothing
  · exact .answers _ running

/-- An answer that a held command waits for goes to its owner in READY, and is discarded otherwise (R58, R73). -/
theorem acts_onHeldAnswer {tag : Requester} {k : Command → Request → State → State} (h : s.onHeldAnswer tag k = .next t)
    (owner : ∀ c, ∀ q ∈ s.port, q.requester = tag → s.host.engine = .ready → s.proc.state = .held c →
      Acts s (k c q (s.answered tag))) : Acts s t := by
  refine acts_onAnswer h fun q mem name running => ?_
  split
  · next ready =>
    split
    · exact .answers tag running
    · exact .answers tag running
    · exact .answers tag running
    · next c holds => exact owner c q mem name ready holds
  · exact .answers tag running

/-- The rows of a change-list read (R69, R72). -/
theorem acts_changeListRead (entries : List Word) (h : execChangeListReadDone entries s = .next t) : Acts s t := by
  refine acts_onHeldAnswer h fun c q _ _ ready holds => ?_
  have running : s.host.engine ≠ .resetting := by simp [ready]
  split
  · exact .answers _ running
  · exact .answers _ running
  · next working a count next load =>
    split
    · exact .takesChanges c working a count next entries ready holds load
    · exact .nothing

/-- The error of a change-list read (R72). -/
theorem acts_changeListError (h : execChangeListReadError s = .next t) : Acts s t := by
  refine acts_onHeldAnswer h fun c q _ _ ready holds => ?_
  have running : s.host.engine ≠ .resetting := by simp [ready]
  split
  · exact .answers _ running
  · exact .answers _ running
  · next load =>
    exact .failsLoad c _ ready holds (by rw [answered_sched] at load; simp [load])

/-! ## Streams -/

/-- A stream of the state in which a descriptor read has its answer. -/
theorem stream_descriptorAnswered (s : State) (i : StreamId) :
    (s.descriptorAnswered i).stream i = { s.stream i with descriptorInFlight := false } := by simp [State.descriptorAnswered]

/-- A stream of the state in which a data request has its answer. -/
theorem stream_dataAnswered (s : State) (i : StreamId) :
    (s.dataAnswered i).stream i = { s.stream i with dataInFlight := none } := by simp [State.dataAnswered]

/-- The row DESCRIPTOR_READ_DONE (R91). -/
theorem acts_descriptorReadDone {i : StreamId} {words : Vector Word 4} (h : execDescriptorReadDone i words s = .next t) :
    Acts s t := by
  refine acts_onAnswer h fun q mem name running => ?_
  dsimp only
  split
  · next cond =>
    obtain ⟨ready, may⟩ := cond
    rw [stream_descriptorAnswered] at may
    exact .stream (.takesDescriptor i words ready may ((inFlight_iff _ _).2 ⟨q, mem, name⟩))
  · exact .stream (.answersDescriptor i running)

/-- The row DATA_READ_DONE (R104). -/
theorem acts_dataReadDone {i : StreamId} {samples : List Word} (h : execDataReadDone i samples s = .next t) : Acts s t := by
  unfold execDataReadDone State.onReadAnswer at h
  refine acts_onAnswer h fun q mem name running => ?_
  dsimp only
  split
  · next n read =>
    split
    · next cond =>
      obtain ⟨ready, may⟩ := cond
      rw [stream_dataAnswered] at may
      split
      · next length => exact .stream (.takesData i samples q ready may mem name (length ▸ read))
      · exact .nothing
    · exact .stream (.answersData i running)
  · exact .nothing

/-- The row DATA_WRITE_DONE (R129). -/
theorem acts_dataWriteDone {i : StreamId} (h : execDataWriteDone i s = .next t) : Acts s t := by
  unfold execDataWriteDone State.onWriteAnswer at h
  refine acts_onAnswer h fun q _ _ running => ?_
  dsimp only
  split
  · exact .nothing
  · split
    · exact .answers _ running
    · next n writing =>
      split
      · next ready => exact .stream (.storesData i n ready writing)
      · exact .stream (.answersData i running)

/-- The rows of an error answer to a data request (R105, R130). -/
theorem acts_dataError {i : StreamId} {cause : StreamFault} (running : s.host.engine ≠ .resetting) :
    Acts s
      (if ((s.answered (.data i)).dataAnswered i).host.engine = .ready then
        ((s.answered (.data i)).dataAnswered i).dataFailed i cause
      else (s.answered (.data i)).dataAnswered i) := by
  split
  · next ready => exact .stream (.failsData i cause ready)
  · exact .stream (.answersData i running)

/-- The end of a CLOSE or RESTART is one of the changes, under the conditions of R55 and R56. -/
theorem acts_endOfClose {i : StreamId} (h : execEndOfClose i s = .next t) : Acts s t := by
  cases h
  split
  · next cond =>
    obtain ⟨ready, finished⟩ := cond
    split
    · next c operation holds => exact .closes i c ready finished operation holds
    · exact .nothing
  · exact .nothing

theorem acts_endOfRestart {i : StreamId} (h : execEndOfRestart i s = .next t) : Acts s t := by
  cases h
  split
  · next cond =>
    obtain ⟨ready, finished⟩ := cond
    split
    · next n c operation holds => exact .restarts i c n ready finished operation holds
    · exact .nothing
  · exact .nothing

/-! ## Every command -/

/-- A row that acts where its condition holds and changes nothing elsewhere. -/
theorem acts_ite {p : Prop} [Decidable p] (h : p → Acts s t) : Acts s (if p then t else s) := by
  split
  · next hp => exact h hp
  · exact .nothing

/-- Every command that answers a next state makes one of the changes of `Acts`. -/
theorem acts_of_exec {c : Instr} (h : exec c s = .next t) : Acts s t := by
  cases c with
  | enable => cases h; exact acts_ifReleased (acts_takeEnable s)
  | softReset => cases h; exact acts_ifReleased (acts_takeReset s)
  | registerWrite reg full value => cases h; exact acts_ite fun _ => acts_ifReleased (acts_writeRegister s reg value)
  | hardReset source levels => exact .hardResets source levels h
  | notifyCommandRing value => cases h; exact acts_ifReleased (.notifiesCommand value)
  | acknowledge value => cases h; exact acts_ifReleased (.acknowledges value)
  | notifyBlockRing i value => cases h; exact acts_ifReleased (.stream (.notifiesBlock i value))
  | notifyNoRing selector value => cases h; exact acts_ifReleased (acts_takeNotify s _ value)
  | controlAreaLoaded words =>
    refine acts_onAnswer h fun q _ _ running => ?_
    split
    · next loading =>
      split
      · next ring config fields => exact .readies words ring config loading fields
      · exact .faults _ _ (.inl loading)
    · exact .answers _ running
  | controlReadError =>
    refine acts_onAnswer h fun q _ _ running => ?_
    split
    · next loading => exact .faults _ _ (.inl loading)
    · exact .answers _ running
  | commandReadIssue => cases h; exact .looks
  | commandReadError =>
    refine acts_onAnswer h fun q _ _ running => ?_
    split
    · next ready => exact .faults _ _ (.inr ready)
    · exact .answers _ running
  | unknownCommand code r => exact acts_takeCommand (fun _ _ => .ends _ _) h
  | linkConfigure r => exact acts_takeCommand (fun c s => owned_linkConfigure c s r) h
  | linkStart r => exact acts_takeCommand (fun c s => owned_linkStart c s r) h
  | linkStop r => exact acts_takeCommand owned_linkStop h
  | openStream r => exact acts_takeCommand (fun c s => owned_openStream c s r) h
  | closeStream r => exact acts_takeCommand (fun c s => owned_closeStream c s r) h
  | restartStream r => exact acts_takeCommand (fun c s => owned_restartStream c s r) h
  | queryStream r => exact acts_takeCommand (fun c s => owned_queryStream c s r) h
  | loadSchedule r => exact acts_takeCommand (fun c s => owned_loadSchedule c s r) h
  | commitSchedule r => exact acts_takeCommand owned_commitSchedule h
  | cancelCommit r => exact acts_takeCommand owned_cancelCommit h
  | setSense r => exact acts_takeCommand (fun c s => owned_setSense c s r) h
  | postEvent r => exact acts_takeCommand (fun c s => owned_postEvent c s r) h
  | injectFault r => exact acts_takeCommand (fun c s => owned_injectFault c s r) h
  | heldLoadPerformed =>
    cases h
    split
    · next cond =>
      obtain ⟨ready, clear⟩ := cond
      split
      · exact .nothing
      · next a count basis held => exact .performsLoad a count basis ready clear held
      · exact .nothing
    · exact .nothing
  | changeListReadDone entries => exact acts_changeListRead entries h
  | changeListReadError => exact acts_changeListError h
  | snapshotWriteDone error =>
    simp only [exec, execSnapshotWriteDone] at h
    exact acts_onHeldAnswer h fun c q mem name ready holds =>
      .endsQuery c _ ready holds ((inFlight_iff _ _).2 ⟨q, mem, name⟩)
  | frameTimerExpiry => cases h; exact acts_ite fun ⟨ready, running, timer⟩ => .link (.startsFrame ready running timer)
  | transmissionEnd => cases h; exact acts_ite fun sending => .link (.endsTransmission sending)
  | returnArrival words ragged => cases h; exact acts_ite fun ⟨taken, _⟩ => .link (.arrives words ragged taken)
  | loopedReturn =>
    cases h
    refine acts_ite fun ⟨taken, _, _, _⟩ => ?_
    unfold State.loopReturn
    split
    · exact .nothing
    · next words sent => exact .link (.loops words taken sent)
  | deadlineExpiry => cases h; exact acts_ite fun taken => .link (.misses taken)
  | entryToStopped => cases h; exact acts_ite fun ready => .link (.stops ready)
  | timeoutExpiry => cases h; exact acts_ite fun ⟨ready, waiting, _⟩ => .link (.timesOut ready waiting)
  | senseLineEdge k e micros =>
    cases h
    split
    · exact .link (.triggers k e)
    · split
      · exact .link (.selects k e micros)
      · exact .link (.changesLevel k e)
  | triggerEdgeReport =>
    cases h
    split
    · exact .nothing
    · next p rest first => exact .link (.takesReport p rest first)
  | descriptorReadIssue i =>
    cases h
    split
    · next cond =>
      obtain ⟨ready, wants⟩ := cond
      split
      · exact .nothing
      · next sh shape => exact .stream (.readsDescriptor i sh ready wants shape)
    · exact .nothing
  | descriptorReadDone i words => exact acts_descriptorReadDone h
  | descriptorReadError i =>
    simp only [exec, execDescriptorReadError] at h
    refine acts_onAnswer h fun q _ _ running => ?_
    split
    · next ready => exact .stream (.failsDescriptor i _ ready)
    · exact .stream (.answersDescriptor i running)
  | dataReadIssue i => cases h; exact .stream (.readsData i)
  | dataReadDone i samples => exact acts_dataReadDone h
  | dataReadError i =>
    simp only [exec, execDataReadError, State.onReadAnswer] at h
    refine acts_onAnswer h fun q _ _ running => ?_
    split
    · exact acts_dataError running
    · exact .nothing
  | dataWriteIssue i => cases h; exact .stream (.writesData i)
  | dataWriteDone i => exact acts_dataWriteDone h
  | dataWriteError i =>
    simp only [exec, execDataWriteError, State.onWriteAnswer] at h
    refine acts_onAnswer h fun q _ _ running => ?_
    split
    · exact .nothing
    · exact acts_dataError running
  | drainFinished i => cases h; exact acts_ite fun ⟨ready, done⟩ => .stream (.drains i ready done)
  | endOfClose i => exact acts_endOfClose h
  | endOfRestart i => exact acts_endOfRestart h
  | ringWriteIssue => cases h; exact .writesRing
  | ringWriteDone =>
    refine acts_onAnswer h fun q mem name running => ?_
    split
    · next ready => exact .writtenRing ready ((inFlight_iff _ _).2 ⟨q, mem, name⟩)
    · exact .answers _ running
  | eventLoss => cases h; exact acts_ite fun ⟨place, lost⟩ => .servesLoss place lost
  | waitingCommandServed => cases h; exact acts_ite fun ⟨place, _, waiting⟩ => .servesCommand place waiting
  | waitingRetirementServed =>
    cases h
    split
    · next cond =>
      obtain ⟨place, -, -⟩ := cond
      split
      · exact .nothing
      · next i first => exact .stream (.servesRetirement i place first)
    · exact .nothing
  | ringWriteError =>
    refine acts_onAnswer h fun q _ _ running => ?_
    split
    · next ready => exact .faults _ _ (.inr ready)
    · exact .answers _ running
  | holdoffExpiry => cases h; exact acts_ite fun ⟨ready, running⟩ => .expiresHoldoff ready running
  | answerInResetting tag =>
    simp only [exec, execAnswerInResetting] at h
    exact acts_onAnswer h fun _ _ _ _ => .nothing
  | resetPinReleased => cases h; exact .writesHost { s.host with resetHeld := false } rfl

end

/-- An invariant that says nothing of the queue is kept by every step when each change of `Acts` keeps it. -/
theorem keptByEveryStep_of_acts {Inv : State → Prop} (queue : ∀ (s : State) (rest : List Instr), Inv s → Inv { s with pending := rest })
    (acts : ∀ {s t : State}, Inv s → Acts s t → Inv t) : KeptByEveryStep Inv := by
  intro s t inv h
  unfold step at h
  split at h
  · cases h; exact inv
  · exact acts (queue s _ inv) (acts_of_exec h)

end Sys2Proof.Machine

/-!
The work of the link, said once: frame starts, returns, deadlines and entries to STOPPED are made of a few small changes, so that what
each small change keeps, they keep (`LinkStable`).
-/
namespace Sys2Proof.Machine

/-- From `s` to `t` only the link, the lines, the Return Unit, the free-value counter, the retiring mark and the outstanding COMMIT can
differ. -/
def LinkOnly (s t : State) : Prop :=
  t = { s with
    link := t.link
    lines := t.lines
    ret := t.ret
    freeSeq := t.freeSeq
    sched := { s.sched with retiring := t.sched.retiring, commit := t.sched.commit } }

/-- As `LinkOnly`, with the link state and the commands outstanding as they were. -/
def LinkCalm (s t : State) : Prop :=
  t = { s with
    link := { t.link with state := s.link.state, start := s.link.start, stop := s.link.stop }
    lines := t.lines
    ret := t.ret
    freeSeq := t.freeSeq
    sched := { s.sched with retiring := t.sched.retiring } }

section
variable (s : State)

@[simp] theorem swap_pending : s.swap.pending = s.pending := by rw [swap_frame]
@[simp] theorem swap_host : s.swap.host = s.host := by rw [swap_frame]
@[simp] theorem swap_port : s.swap.port = s.port := by rw [swap_frame]
@[simp] theorem swap_proc : s.swap.proc = s.proc := by rw [swap_frame]
@[simp] theorem swap_comp : s.swap.comp = s.comp := by rw [swap_frame]
@[simp] theorem swap_freePool : s.swap.freePool = s.freePool := by rw [swap_frame]
@[simp] theorem swap_link : s.swap.link = s.link := by rw [swap_frame]
@[simp] theorem swap_ret : s.swap.ret = s.ret := by rw [swap_frame]
@[simp] theorem swap_lines : s.swap.lines = s.lines := by rw [swap_frame]
@[simp] theorem swap_freeSeq : s.swap.freeSeq = s.freeSeq := by rw [swap_frame]

end

section
variable {s t : State} (h : LinkOnly s t)
include h

theorem LinkOnly.pending : t.pending = s.pending := by rw [h]
theorem LinkOnly.host : t.host = s.host := by rw [h]
theorem LinkOnly.port : t.port = s.port := by rw [h]
theorem LinkOnly.proc : t.proc = s.proc := by rw [h]
theorem LinkOnly.comp : t.comp = s.comp := by rw [h]
theorem LinkOnly.streams : t.streams = s.streams := by rw [h]
theorem LinkOnly.stream (i : StreamId) : t.stream i = s.stream i := stream_congr h.streams i
theorem LinkOnly.freePool : t.freePool = s.freePool := by rw [h]
theorem LinkOnly.sched : t.sched = { s.sched with retiring := t.sched.retiring, commit := t.sched.commit } := by rw [h]

end

/-- A property of states that each of the changes keeps of which the link's work is made. -/
structure LinkStable (Q : State → Prop) : Prop where
  present : ∀ (s : State) (e : Event), Q s → Q (s.present e)
  apart : ∀ {s t : State}, LinkCalm s t → Q s → Q t
  performArmedSwap : ∀ {s : State} (first : Option FrameNo), Q s → Q (s.performArmedSwap first)
  enterStopped : ∀ {s : State} (status : CommandStatus), Q s → Q (s.enterStopped status)
  faultStop : ∀ {s : State}, s.link.state = .running → Q s → Q s.faultStop
  beginRun : ∀ {s : State}, s.host.engine = .ready → s.link.state = .waiting → Q s →
    Q (({ s with link.state := .running, link.timeout := none } : State).completeStart .ok)
  outTurn : ∀ (f : FrameNo) (s : State) (i : StreamId), Q s → Q (outStreamTurn f s i)
  inTurn : ∀ (b : Bank) (f : FrameNo) (r : Resolution) (words : List Word) (s : State) (i : StreamId), Q s →
    Q (inStreamTurn b f r words s i)

namespace LinkStable
variable {Q : State → Prop} (stable : LinkStable Q) {s : State}
include stable

theorem stopWhenDone (h : Q s) : Q s.stopWhenDone := by
  rcases stopWhenDone_cases s with ⟨-, -, -, e⟩ | ⟨-, e⟩
  · rw [e]; exact stable.enterStopped _ h
  · rw [e]; exact h

theorem goodReturn (f : FrameNo) (h : Q s) : Q (s.goodReturn f) := by
  unfold State.goodReturn
  split
  · exact h
  · exact stable.apart rfl (stable.present _ _ h)

theorem badReturn (f : FrameNo) (h : Q s) : Q (s.badReturn f) := by
  have counted : Q { s with link.badRun := countUp s.link.badRun } := stable.apart rfl h
  have told : Q (if s.link.badRun = 0 then
      ({ s with link.badRun := countUp s.link.badRun } : State).present (.linkDegraded f s.ret.lastStation)
    else { s with link.badRun := countUp s.link.badRun }) := by
    split
    · exact stable.present _ _ counted
    · exact counted
  unfold State.badReturn
  dsimp only
  split
  · next reaches =>
    refine stable.faultStop ?_ told
    simp only [State.reachesThreshold, Bool.and_eq_true, decide_eq_true_eq] at reaches
    obtain ⟨⟨⟨running, -⟩, -⟩, -⟩ := reaches
    split
    · rw [present_link]; exact running
    · exact running
  · exact told

theorem unmatchedReturn (f : FrameNo) (h : Q s) : Q (s.unmatchedReturn f) := stable.stopWhenDone (stable.badReturn f h)

theorem windowNotice (h : Q s) : Q s.windowNotice := stable.stopWhenDone (stable.apart rfl h)

theorem inTurns (b : Bank) (f : FrameNo) (r : Resolution) (words : List Word) (l : List StreamId) :
    ∀ {s : State}, Q s → Q (l.foldl (inStreamTurn b f r words) s) := by
  induction l with
  | nil => exact fun h => h
  | cons i rest ih => exact fun h => ih (stable.inTurn b f r words _ i h)

theorem outTurns (f : FrameNo) (l : List StreamId) : ∀ {s : State}, Q s → Q (l.foldl (outStreamTurn f) s) := by
  induction l with
  | nil => exact fun h => h
  | cons i rest ih => exact fun h => ih (stable.outTurn f _ i h)

theorem resolve (e : WindowEntry) (r : Resolution) (words : List Word) (h : Q s) : Q (s.resolve e r words) := by
  have turns := stable.inTurns (s.bankOf e.generation) e.frame r words allStreams h
  unfold State.resolve
  cases r with
  | good => exact stable.windowNotice (stable.goodReturn _ turns)
  | damaged => exact stable.windowNotice (stable.badReturn _ turns)
  | missing => exact stable.windowNotice (stable.badReturn _ turns)

theorem resolveOldestMissing (h : Q s) : Q s.resolveOldestMissing := by
  unfold State.resolveOldestMissing
  split
  · exact h
  · exact stable.resolve _ _ _ (stable.apart rfl h)

theorem resolveThrough (n : FrameNo) (r : Resolution) (words : List Word) (k : Nat) :
    ∀ {s : State}, Q s → Q (resolveThrough k n r words s) := by
  induction k with
  | zero => exact fun h => h
  | succ k ih =>
    intro s h
    unfold Machine.resolveThrough
    split
    · exact h
    · split
      · exact stable.resolve _ _ _ (stable.apart rfl h)
      · exact ih (stable.resolveOldestMissing h)

theorem takeArrival (words : List Word) (ragged : Bool) (h : Q s) : Q (s.takeArrival words ragged) := by
  unfold State.takeArrival
  split
  · exact stable.apart rfl h
  · split
    · unfold State.takeGoodReturn
      dsimp only
      have kept : Q { s with ret.lastStation := words.getD 1 0 } := stable.apart rfl h
      split
      · exact stable.resolveThrough _ _ _ _ kept
      · exact stable.unmatchedReturn _ kept
    · unfold State.takeDamagedReturn
      split
      · exact stable.unmatchedReturn _ h
      · split
        · exact stable.apart rfl (stable.resolveThrough _ _ _ _ h)
        · exact stable.unmatchedReturn _ h

theorem settleBank (f : FrameNo) (h : Q s) : Q (s.settleBank f) := by
  unfold State.settleBank
  split
  · exact stable.performArmedSwap _ h
  · exact h

theorem appendToWindow (f : FrameNo) (g : Gen) (h : Q s) : Q (s.appendToWindow f g) := by
  unfold State.appendToWindow
  dsimp only
  split
  · exact stable.apart rfl (stable.resolveOldestMissing h)
  · exact stable.apart rfl h

theorem setLines (f : FrameNo) (h : Q s) : Q (s.setLines f) := stable.apart rfl h

theorem transmit (f : FrameNo) (g : Gen) (slots : List (Word × Bool)) (h : Q s) : Q (s.transmit f g slots) := stable.apart rfl h

theorem frameStart (f : FrameNo) (h : Q s) : Q (s.frameStart f) := by
  have bank : Q (({ s with link.frame := f, link.frameTimer := true } : State).settleBank f) :=
    stable.settleBank f (stable.apart rfl h)
  exact stable.transmit _ _ _ (stable.setLines f (stable.appendToWindow f _ (stable.outTurns f allStreams bank)))

theorem presentEdge (k : LineId) (e : Edge) (stamp : Option (FrameNo × Nat)) (h : Q s) : Q (s.presentEdge k e stamp) :=
  stable.present _ _ (stable.apart rfl h)

theorem edgeInFrame (k : LineId) (e : Edge) (offset : Nat) (h : Q s) : Q (s.edgeInFrame k e offset) := by
  unfold State.edgeInFrame
  dsimp only
  split
  · exact stable.apart rfl h
  · exact stable.presentEdge _ _ _ (stable.apart rfl h)

theorem selectedEdge (k : LineId) (e : Edge) (micros : Nat) (h : Q s) : Q (s.selectedEdge k e micros) := by
  unfold State.selectedEdge
  split
  · split
    · exact stable.edgeInFrame _ _ _ h
    · exact stable.presentEdge _ _ _ h
  · exact h

theorem withLevel (k : LineId) (e : Edge) (h : Q s) : Q (s.withLevel k e) := stable.apart rfl h

theorem triggerStart (p : TriggerReport) (ready : s.host.engine = .ready) (waiting : s.link.state = .waiting) (h : Q s) :
    Q (s.triggerStart p) := by
  have started := stable.frameStart 0 (stable.beginRun ready waiting h)
  unfold State.triggerStart
  dsimp only
  split
  · exact stable.edgeInFrame _ _ _ started
  · exact started

theorem takeReport (p : TriggerReport) (h : Q s) : Q (s.takeReport p) := by
  unfold State.takeReport State.triggerTooLate
  split
  · next ready =>
    split
    · next serves => exact stable.triggerStart p ready serves.1 h
    · split
      · exact stable.presentEdge _ _ _ h
      · exact h
  · exact h

end LinkStable

/-! ## Properties that do not speak of commands outstanding -/

/-- A property of states that each of the small changes keeps of which the link's work is made, whichever commands are outstanding. -/
structure CommandBlind (Q : State → Prop) : Prop where
  present : ∀ (s : State) (e : Event), Q s → Q (s.present e)
  complete : ∀ (s : State) (c : Command) (status : CommandStatus) (result : CommandResult), Q s → Q (s.complete c status result)
  apart : ∀ {s t : State}, LinkOnly s t → Q s → Q t
  swap : ∀ s : State, s.sched.swapArmed = true → Q s → Q s.swap
  outTurn : ∀ (f : FrameNo) (s : State) (i : StreamId), Q s → Q (outStreamTurn f s i)
  inTurn : ∀ (b : Bank) (f : FrameNo) (r : Resolution) (words : List Word) (s : State) (i : StreamId), Q s →
    Q (inStreamTurn b f r words s i)

namespace CommandBlind
variable {Q : State → Prop} (blind : CommandBlind Q) {s : State}
include blind

theorem performArmedSwap (first : Option FrameNo) (h : Q s) : Q (s.performArmedSwap first) := by
  unfold State.performArmedSwap
  split
  · next armed =>
    have swapped := blind.swap s armed h
    generalize s.swap = t at swapped ⊢
    split
    · exact swapped
    · exact blind.complete _ _ _ _ (blind.apart rfl swapped)
  · exact h

theorem completeStart (status : CommandStatus) (h : Q s) : Q (s.completeStart status) := by
  unfold State.completeStart
  split
  · exact h
  · exact blind.complete _ _ _ _ (blind.apart rfl h)

theorem completeStop (h : Q s) : Q s.completeStop := by
  unfold State.completeStop
  split
  · exact h
  · exact blind.complete _ _ _ _ (blind.apart rfl h)

theorem presentLinkDown (h : Q s) : Q s.presentLinkDown := by
  unfold State.presentLinkDown
  split
  · exact h
  · exact h
  · exact blind.present _ _ h
  · exact h

theorem enterStopped (status : CommandStatus) (h : Q s) : Q (s.enterStopped status) := by
  have performed := blind.performArmedSwap none (blind.completeStart status
    (blind.apart (t := { s with link.state := .stopped, link.timeout := none, lines.watch := none }) rfl h))
  exact blind.presentLinkDown (blind.completeStop (blind.apart (t := State.markersOff _) rfl performed))

theorem linkStable : LinkStable Q where
  present := blind.present
  apart {s t} k := blind.apart (k.trans (by rw [k]))
  performArmedSwap := blind.performArmedSwap
  enterStopped := blind.enterStopped
  faultStop _ h := blind.apart rfl h
  beginRun _ _ h := blind.completeStart _ (blind.apart rfl h)
  outTurn := blind.outTurn
  inTurn := blind.inTurn

/-- What an accepted START without a trigger does before it completes (R26). -/
theorem startedNow (h : Q s) : Q (({ s.acceptStart with link.state := .running } : State).frameStart 0) :=
  blind.linkStable.frameStart 0 (blind.apart (s := s) rfl h)

theorem endTransmission (h : Q s) : Q s.endTransmission := by
  have ended : Q { s with link.transmitting := false } := blind.apart rfl h
  unfold State.endTransmission
  dsimp only
  split
  · exact blind.linkStable.stopWhenDone ended
  · exact blind.apart rfl h
  · exact ended
  · exact ended
  · exact ended

/-- Every change of the link's rows keeps the property. -/
theorem linkActs {t : State} (h : Q s) (acts : LinkActs s t) : Q t := by
  have stable := blind.linkStable
  cases acts with
  | startsFrame _ _ _ => exact stable.frameStart _ h
  | endsTransmission _ => exact blind.endTransmission h
  | arrives words ragged _ => exact stable.takeArrival _ _ h
  | loops words _ _ => exact stable.takeArrival _ _ (blind.apart rfl h)
  | misses _ => exact stable.resolveOldestMissing h
  | stops _ => exact stable.stopWhenDone h
  | timesOut _ _ => exact blind.enterStopped _ h
  | changesLevel k e => exact stable.withLevel k e h
  | triggers k e => exact blind.apart rfl (stable.withLevel k e h)
  | selects k e micros => exact stable.selectedEdge k e micros (stable.withLevel k e h)
  | takesReport p rest _ => exact stable.takeReport p (blind.apart rfl h)

end CommandBlind

/-! ## The rows of one stream -/

/-- From `s` to `t` only streams, records in the holding list, the event-loss count and requests of streams can differ. -/
structure Elsewhere (s t : State) : Prop where
  pending : t.pending = s.pending
  host : t.host = s.host
  proc : t.proc = s.proc
  freePool : t.freePool = s.freePool
  sched : t.sched = s.sched
  link : t.link = s.link
  ret : t.ret = s.ret
  lines : t.lines = s.lines
  records : OnlyRecords s t
  port : ∀ r ∈ t.port, r ∈ s.port ∨ ∃ i : StreamId, r.requester = .descriptor i ∨ r.requester = .data i

namespace Elsewhere
variable {s t u : State}

theorem refl (s : State) : Elsewhere s s := ⟨rfl, rfl, rfl, rfl, rfl, rfl, rfl, rfl, .refl s, fun _ mem => .inl mem⟩

theorem trans (h : Elsewhere s t) (k : Elsewhere t u) : Elsewhere s u where
  pending := k.pending.trans h.pending
  host := k.host.trans h.host
  proc := k.proc.trans h.proc
  freePool := k.freePool.trans h.freePool
  sched := k.sched.trans h.sched
  link := k.link.trans h.link
  ret := k.ret.trans h.ret
  lines := k.lines.trans h.lines
  records := h.records.trans k.records
  port r mem := (k.port r mem).elim (h.port r) .inr

/-- A request of no stream that is in flight after was in flight before. -/
theorem inFlight (h : Elsewhere s t) {tag : Requester} (descriptor : ∀ i, tag ≠ .descriptor i) (data : ∀ i, tag ≠ .data i)
    (f : t.inFlight tag = true) : s.inFlight tag = true := by
  obtain ⟨r, mem, name⟩ := (inFlight_iff _ _).1 f
  rcases h.port r mem with old | ⟨i, own | own⟩
  · exact (inFlight_iff _ _).2 ⟨r, old, name⟩
  · exact absurd (name.symm.trans own) (descriptor i)
  · exact absurd (name.symm.trans own) (data i)

theorem setStream (s : State) (i : StreamId) (c : Stream) : Elsewhere s (s.setStream i c) :=
  ⟨rfl, rfl, rfl, rfl, rfl, rfl, rfl, rfl, onlyRecords_setStream s i c, fun _ mem => .inl mem⟩

theorem present (s : State) (e : Event) : Elsewhere s (s.present e) :=
  ⟨by simp, by simp, by simp, by simp, by simp, by simp, by simp, by simp, onlyRecords_present s e, fun _ mem => .inl (by simpa using mem)⟩

theorem answered (s : State) (tag : Requester) : Elsewhere s (s.answered tag) :=
  ⟨rfl, rfl, rfl, rfl, rfl, rfl, rfl, rfl, .of_comp rfl, fun _ mem => .inl (List.mem_filter.1 mem).1⟩

/-- A request of a stream. -/
theorem issue (s : State) {tag : Requester} (a : Addr) (x : Transfer) (own : ∃ i : StreamId, tag = .descriptor i ∨ tag = .data i) :
    Elsewhere s (s.issue tag a x) := by
  refine ⟨rfl, rfl, rfl, rfl, rfl, rfl, rfl, rfl, .of_comp rfl, fun r mem => ?_⟩
  rcases List.mem_append.1 mem with old | new
  · exact .inl old
  · rw [List.mem_singleton.1 new]
    exact .inr own

theorem retireFinished (s : State) (i : StreamId) : Elsewhere s (s.retireFinished i) := by
  have frame := retireFinished_frame s i
  refine ⟨?_, ?_, ?_, ?_, ?_, ?_, ?_, ?_, onlyRecords_retireFinished s i, fun r mem => .inl (by rwa [frame] at mem)⟩
  all_goals rw [frame]

theorem serveRetirement (s : State) (i : StreamId) (place : s.placesInUse < 32) : Elsewhere s (s.serveRetirement i) := by
  have frame := serveRetirement_frame s i
  refine ⟨?_, ?_, ?_, ?_, ?_, ?_, ?_, ?_, onlyRecords_serveRetirement s i place, fun r mem => .inl (by rwa [frame] at mem)⟩
  all_goals rw [frame]

theorem faultStream (s : State) (i : StreamId) (cause : StreamFault) (n : Nat) : Elsewhere s (s.faultStream i cause n) := by
  have frame := faultStream_frame s i cause n
  refine ⟨?_, ?_, ?_, ?_, ?_, ?_, ?_, ?_, onlyRecords_faultStream s i cause n, fun r mem => .inl (by rwa [frame] at mem)⟩
  all_goals rw [frame]

theorem takeBlockNotify (s : State) (i : StreamId) (v : BitVec 16) : Elsewhere s (s.takeBlockNotify i v) := by
  unfold State.takeBlockNotify
  dsimp only
  split
  · split
    · exact present s _
    · split
      · exact present s _
      · split
        · exact present s _
        · exact setStream s i _
  · exact refl s

theorem tryRead (s : State) (i : StreamId) : Elsewhere s (s.tryRead i) := by
  unfold State.tryRead
  dsimp only
  split
  · split
    · exact refl s
    · split
      · exact (setStream s i _).trans (issue _ _ _ ⟨i, .inr rfl⟩)
      · exact refl s
  · exact refl s

theorem tryWrite (s : State) (i : StreamId) : Elsewhere s (s.tryWrite i) := by
  unfold State.tryWrite
  dsimp only
  split
  · split
    · exact refl s
    · split
      · exact (setStream s i _).trans (issue _ _ _ ⟨i, .inr rfl⟩)
      · exact refl s
  · exact refl s

theorem dataFailed (s : State) (i : StreamId) (cause : StreamFault) : Elsewhere s (s.dataFailed i cause) := by
  unfold State.dataFailed
  split
  · exact refl s
  · exact faultStream s i _ _

theorem storeElements (s : State) (i : StreamId) (n : Nat) : Elsewhere s (s.storeElements i n) := by
  have stored := setStream s i ((s.stream i).takeWrite n)
  unfold State.storeElements
  dsimp only
  split
  · exact stored.trans (retireFinished _ i)
  · exact stored

theorem descriptorAnswered (s : State) (i : StreamId) : Elsewhere s ((s.answered (.descriptor i)).descriptorAnswered i) :=
  (answered s _).trans (setStream _ i _)

theorem dataAnswered (s : State) (i : StreamId) : Elsewhere s ((s.answered (.data i)).dataAnswered i) :=
  (answered s _).trans (setStream _ i _)

end Elsewhere

/-- The rows of one stream leave everything else alone. -/
theorem elsewhere_of_streamActs {s t : State} (acts : StreamActs s t) : Elsewhere s t := by
  cases acts with
  | notifiesBlock i v => exact .takeBlockNotify s i v
  | readsDescriptor i sh _ _ _ =>
    exact (Elsewhere.setStream s i { s.stream i with descriptorInFlight := true }).trans (.issue _ _ _ ⟨i, .inl rfl⟩)
  | answersDescriptor i _ => exact .descriptorAnswered s i
  | takesDescriptor i words _ _ _ =>
    refine (Elsewhere.descriptorAnswered s i).trans ?_
    unfold State.judgeDescriptor
    split
    · exact .setStream _ i _
    · exact .faultStream _ i _ _
  | failsDescriptor i n _ => exact (Elsewhere.descriptorAnswered s i).trans (.faultStream _ i _ _)
  | readsData i => exact .tryRead s i
  | answersData i _ => exact .dataAnswered s i
  | takesData i samples q _ _ _ _ _ => exact (Elsewhere.dataAnswered s i).trans (.setStream _ i _)
  | failsData i cause _ => exact (Elsewhere.dataAnswered s i).trans (.dataFailed _ i cause)
  | writesData i => exact .tryWrite s i
  | storesData i n _ _ => exact (Elsewhere.dataAnswered s i).trans (.storeElements _ i n)
  | drains i _ _ => exact (Elsewhere.setStream s i (s.stream i).drain).trans (.retireFinished _ i)
  | servesRetirement i place _ => exact .serveRetirement s i ((placeToHand_iff s).1 place).2

end Sys2Proof.Machine

/-!
The completion ring's counters (R166, R175): what leaves them alone, what moves them, and the statement that every step keeps their
agreement.
-/
namespace Sys2Proof.Machine

/-- From `s` to `t` the engine state, the counters of the completion ring and its timer stand, and no ring write is issued. -/
def RingStands (s t : State) : Prop :=
  t.host.engine = s.host.engine
  ∧ t.comp = { s.comp with holding := t.comp.holding, reservations := t.comp.reservations, lossCount := t.comp.lossCount }
  ∧ (t.inFlight .completionUnit = true → s.inFlight .completionUnit = true)

section
variable {s t : State}

theorem RingStands.trans {u : State} (h : RingStands s t) (k : RingStands t u) : RingStands s u := by
  obtain ⟨engine, comp, port⟩ := h
  obtain ⟨engine', comp', port'⟩ := k
  refine ⟨engine'.trans engine, ?_, fun f => port (port' f)⟩
  rw [comp', comp]

/-- The agreement of the counters goes with what it speaks of. -/
theorem ringInv_of_stands (h : RingInv s) (k : RingStands s t) : RingInv t := by
  obtain ⟨engine, comp, port⟩ := k
  unfold RingInv at h ⊢
  obtain ⟨counts, config, room, timer, stopped⟩ := h
  rw [engine, comp]
  exact ⟨counts, config, fun ready f => room ready (port f), timer, stopped⟩

/-- Records that enter leave the ring's counters alone. -/
theorem ringStands_comp (h : OnlyRecords s t) :
    t.comp = { s.comp with holding := t.comp.holding, reservations := t.comp.reservations, lossCount := t.comp.lossCount } := by
  obtain ⟨comp, -⟩ := h
  rw [comp]

/-- A change that leaves the Port and the Host Window alone, and of the Completion Unit at most adds records. -/
theorem ringStands_of_onlyRecords (host : t.host = s.host) (port : t.port = s.port) (h : OnlyRecords s t) : RingStands s t := by
  exact ⟨by rw [host], ringStands_comp h, fun f => by rwa [State.inFlight, State.request, port] at f⟩

theorem ringStands_of_comp (host : t.host = s.host) (port : t.port = s.port) (comp : t.comp = s.comp) : RingStands s t :=
  ringStands_of_onlyRecords host port (.of_comp comp)

theorem ringStands_complete (s : State) (c : Command) (status : CommandStatus) (result : CommandResult) :
    RingStands s (s.complete c status result) := ⟨rfl, rfl, id⟩

theorem ringStands_endCommand (s : State) (c : Command) (status : CommandStatus) (result : CommandResult) :
    RingStands s (s.endCommand c status result) := ⟨rfl, rfl, id⟩

/-- The answer to any request. -/
theorem ringStands_answered (s : State) (tag : Requester) : RingStands s (s.answered tag) := by
  refine ⟨rfl, rfl, fun f => ?_⟩
  obtain ⟨r, mem, name⟩ := (inFlight_iff _ _).1 f
  exact (inFlight_iff _ _).2 ⟨r, (List.mem_filter.1 mem).1, name⟩

/-- A request of another block. -/
theorem ringStands_issue (s : State) {tag : Requester} (a : Addr) (x : Transfer) (other : tag ≠ .completionUnit) :
    RingStands s (s.issue tag a x) :=
  ⟨rfl, rfl, fun f => by simpa [inFlight_issue, other] using f⟩

theorem ringStands_readCommand (s : State) : RingStands s s.readCommand := by
  unfold State.readCommand
  split
  · exact ⟨rfl, rfl, id⟩
  · exact RingStands.trans (t := { s.reserve with proc.state := .reading }) ⟨rfl, rfl, id⟩ (ringStands_issue _ _ _ (by decide))

theorem ringStands_lookForCommand (s : State) : RingStands s s.lookForCommand := by
  unfold State.lookForCommand State.beginCommand
  split
  · split
    · exact ringStands_readCommand s
    · exact ⟨rfl, rfl, id⟩
  · exact ⟨rfl, rfl, id⟩

theorem ringStands_endHeld (s : State) (c : Command) (status : CommandStatus) (result : CommandResult) :
    RingStands s (s.endHeld c status result) :=
  (ringStands_endCommand s c status result).trans (ringStands_lookForCommand _)

/-- The link's work leaves the ring's counters alone. -/
theorem commandBlind_ringInv : CommandBlind RingInv where
  present s e h := ringInv_of_stands h (ringStands_of_onlyRecords (by simp) (by simp) (onlyRecords_present s e))
  complete s c status result h := ringInv_of_stands h (ringStands_complete s c status result)
  apart k h := ringInv_of_stands h (ringStands_of_comp k.host k.port k.comp)
  swap s _ h := ringInv_of_stands h (ringStands_of_comp (swap_host s) (swap_port s) (swap_comp s))
  outTurn f s i h := by
    have frame := outStreamTurn_frame s f i
    exact ringInv_of_stands h (ringStands_of_onlyRecords (by rw [frame]) (by rw [frame]) (onlyRecords_outStreamTurn f s i))
  inTurn b f r words s i h := by
    have frame := inStreamTurn_frame s b f r words i
    exact ringInv_of_stands h (ringStands_of_onlyRecords (by rw [frame]) (by rw [frame]) (onlyRecords_inStreamTurn b f r words s i))

/-! ## Resets and faults -/

/-- In OFF after a soft reset the ring is that of a reset. -/
theorem ringInv_enterOff (s : State) : RingInv s.enterOff := by
  simp [RingInv, ringCountsAgree, State.enterOff, Completion.reset]

theorem ringInv_offWhenQuiet (h : RingInv s) : RingInv s.offWhenQuiet := by
  unfold State.offWhenQuiet
  split
  · exact ringInv_enterOff s
  · exact h

@[simp] theorem enterFault_engine (s : State) (cause : FaultCause) : (s.enterFault cause).host.engine = .fault := rfl
@[simp] theorem enterResetting_engine (s : State) : s.enterResetting.host.engine = .resetting := rfl
@[simp] theorem enterOff_engine (s : State) : s.enterOff.host.engine = .off := rfl
@[simp] theorem enterReady_engine (s : State) (ring : Ring) (config : CompletionConfig) :
    (s.enterReady ring config).host.engine = .ready := rfl

/-- In FAULT the counters stand, and nothing that only READY asks is asked. -/
theorem ringInv_enterFault (h : RingInv s) (cause : FaultCause) : RingInv (s.enterFault cause) := by
  obtain ⟨counts, -, -, timer, -⟩ := h
  exact ⟨counts, by simp, by simp, timer, by simp⟩

/-- In RESETTING the timer is stopped (R187). -/
theorem ringInv_enterResetting (h : RingInv s) : RingInv s.enterResetting := by
  obtain ⟨counts, -, -, -, -⟩ := h
  exact ⟨counts, by simp, by simp, fun timer => absurd rfl timer, by simp⟩

/-- The sizes and the threshold that the control area's fields pass are above 0 (R183, R193). -/
theorem controlFields_pos {words : Vector Word 8} {ring : Ring} {config : CompletionConfig}
    (fields : controlFields words = some (ring, config)) : 1 ≤ config.threshold ∧ 0 < config.size := by
  unfold controlFields at fields
  dsimp only at fields
  split at fields
  · next valid =>
    obtain ⟨-, -, -, size, threshold⟩ := valid
    cases fields
    have positive : ∀ n ∈ completionRingSizes, 0 < n := by decide
    exact ⟨threshold, positive _ size⟩
  · cases fields

/-- The ring is empty after ENABLE (R183). -/
theorem ringInv_enterReady (h : RingInv s) (loading : s.host.engine = .loading) {ring : Ring} {config : CompletionConfig}
    (threshold : 1 ≤ config.threshold) (size : 0 < config.size) : RingInv (s.enterReady ring config) := by
  obtain ⟨-, -, -, -, stopped⟩ := h
  have timer := stopped (.inr loading)
  refine ⟨⟨threshold, size, size, size, Nat.zero_le _, by simp [State.enterReady]⟩, fun _ => rfl, fun _ _ => size,
    fun running => absurd timer running, by simp⟩

/-! ## The ring's own moves -/

/-- Of two places `index` and `v` in a ring, `v` stands the distance from `index` ahead of it, with at most one turn of the ring. -/
theorem ring_distance {index v size : Nat} (hi : index < size) (hv : v < size) :
    index + (v + (size - index)) % size = v ∨ index + (v + (size - index)) % size = v + size := by
  rcases Nat.lt_or_ge v index with below | above
  · rw [Nat.mod_eq_of_lt (by omega)]
    omega
  · rw [show v + (size - index) = (v - index) + size by omega, Nat.add_mod_right, Nat.mod_eq_of_lt (by omega)]
    omega

/-- The timer left by an acknowledge runs only with a record left (R175). -/
theorem atAcknowledge_stopped {t : HoldoffTimer} {left : Nat} (h : t.atAcknowledge left ≠ .stopped) : 1 ≤ left := by
  rw [atAcknowledge_eq] at h
  by_contra none
  exact h (if_pos (by omega))

/-- An acknowledge moves the index by the records it gives back (R173). -/
theorem ringInv_takeAcknowledge (h : RingInv s) (v : BitVec 16) : RingInv (s.takeAcknowledge v) := by
  by_cases ready : s.host.engine = .ready
  case neg => rwa [takeAcknowledge_of_not_ready ready]
  have stray := commandBlind_ringInv.present s (.strayNotify 1 v) h
  rw [present_of_ready ready] at stray
  obtain ⟨counts, config, room, timer, stopped⟩ := h
  obtain ⟨k, held⟩ := Option.isSome_iff_exists.1 (config ready)
  have size := ringSize_of_config held
  simp only [ringCountsAgree, held] at counts
  obtain ⟨threshold, positive, produce, index, count, sum⟩ := counts
  rcases Nat.lt_or_ge v.toNat s.comp.ringSize with inside | outside
  case inr => rwa [takeAcknowledge_of_outside ready outside]
  rcases Nat.eq_zero_or_pos (s.ackAdvance v) with still | moves
  · rw [takeAcknowledge_of_zero ready inside still]
    exact ⟨by simp only [ringCountsAgree, held]; exact ⟨threshold, positive, produce, index, count, sum⟩, config, room, timer, stopped⟩
  rcases Nat.lt_or_ge s.comp.unacknowledged (s.ackAdvance v) with beyond | within
  · rwa [takeAcknowledge_of_beyond ready inside beyond]
  rw [takeAcknowledge_of_within ready inside moves within]
  rw [size] at inside
  have distance := ring_distance index inside
  rw [← ackAdvance_eq held index] at distance
  refine ⟨?counts, config, fun r f => ?room, fun running => atAcknowledge_stopped running, by simp [ready]⟩
  case counts =>
    simp only [ringCountsAgree, held]
    refine ⟨threshold, positive, produce, inside, by omega, ?_⟩
    rcases distance with none | one
    · rw [sum, ← none]
      congr 1
      omega
    · rw [sum, ← Nat.add_mod_right (v.toNat + _) k.size]
      congr 1
      omega
  case room =>
    have room := room r f
    simp only [Completion.ringSize, held] at room ⊢
    omega

/-- A record written moves the produce index and the count by one, and starts the timer from a count of 0 (R170, R175). -/
theorem ringInv_recordWritten (h : RingInv s) (ready : s.host.engine = .ready) (written : s.inFlight .completionUnit = true) :
    RingInv { s.answered .completionUnit with comp := s.comp.recordWritten } := by
  obtain ⟨counts, config, room, timer, stopped⟩ := h
  obtain ⟨k, held⟩ := Option.isSome_iff_exists.1 (config ready)
  have size := ringSize_of_config held
  simp only [ringCountsAgree, held] at counts
  obtain ⟨threshold, positive, produce, index, count, sum⟩ := counts
  have below := room ready written
  rw [size] at below
  refine ⟨?counts, config, fun _ f => ?room, fun _ => Nat.le_add_left 1 _, by simp [ready]⟩
  case counts =>
    simp only [ringCountsAgree, Completion.recordWritten, held, size]
    refine ⟨threshold, positive, Nat.mod_lt _ positive, index, below, ?_⟩
    rw [sum, Nat.mod_add_mod, Nat.add_assoc]
  case room =>
    have none := not_inFlight_answered s .completionUnit
    rw [Bool.eq_false_iff] at none
    exact absurd f none

theorem ringStands_enterEventLoss (s : State) : RingStands s s.enterEventLoss := ⟨rfl, rfl, id⟩

theorem ringInv_serveRetirement (h : RingInv s) (i : StreamId) (place : s.placesInUse < 32) : RingInv (s.serveRetirement i) := by
  have frame := serveRetirement_frame s i
  exact ringInv_of_stands h
    (ringStands_of_onlyRecords (by rw [frame]) (by rw [frame]) (onlyRecords_serveRetirement s i place))

/-- The place handed on goes to a record or a reservation (R169). -/
theorem ringInv_handOn (h : RingInv s) : RingInv s.handOn := by
  rcases handOn_cases s with ⟨-, e⟩ | ⟨-, place, ⟨-, e⟩ | ⟨-, -, e⟩ | ⟨-, -, ⟨i, -, e⟩ | ⟨-, e⟩⟩⟩
  · rwa [e]
  · exact e ▸ ringInv_of_stands h (ringStands_enterEventLoss s)
  · exact e ▸ ringInv_of_stands h (ringStands_readCommand s)
  · exact e ▸ ringInv_serveRetirement h i place
  · rwa [e]

/-- A ring write is issued only while there is room (R170). -/
theorem ringInv_tryRingWrite (h : RingInv s) : RingInv s.tryRingWrite := by
  unfold State.tryRingWrite
  split
  · next k r rest held _ =>
    split
    · next cond =>
      obtain ⟨ready, -, room⟩ := cond
      obtain ⟨counts, config, -, timer, stopped⟩ := h
      exact ⟨counts, config, fun _ _ => (ringSize_of_config held).symm ▸ room, timer, stopped⟩
    · exact h
  · exact h

/-! ## The owners of the commands, the streams and every step -/

/-- A taken record leaves the ring's counters alone, whatever its owner makes of it. -/
theorem ringInv_owned {c : Command} (h : RingInv s) (owned : Owned c s t) : RingInv t := by
  have ends {u : State} (hu : RingInv u) (status : CommandStatus) (result : CommandResult) : RingInv (u.endCommand c status result) :=
    ringInv_of_stands hu (ringStands_endCommand u c status result)
  have blind := commandBlind_ringInv
  have stable := blind.linkStable
  cases owned with
  | ends status result => exact ends h _ _
  | configures k _ => exact ends (u := { s with link := _ }) (blind.apart rfl h) _ _
  | startsNow _ => exact ends (blind.startedNow h) _ _
  | startsWaiting w timeout _ => exact blind.apart rfl h
  | stopsWaiting _ => exact stable.enterStopped _ (blind.apart rfl h)
  | stopsRunning _ => exact stable.stopWhenDone (blind.apart rfl h)
  | joinsStop _ _ => exact blind.apart rfl h
  | opens r i sh marker _ _ _ _ =>
    refine ends (u := State.bindMarker _ i marker) ?_ _ _
    unfold State.bindMarker
    split
    · exact ringInv_of_stands h (ringStands_of_comp rfl rfl rfl)
    · exact ringInv_of_stands h (ringStands_of_comp rfl rfl rfl)
  | closes i _ _ => exact ringInv_of_stands h (ringStands_of_comp rfl rfl rfl)
  | restarts i n _ _ => exact ringInv_of_stands h (ringStands_of_comp rfl rfl rfl)
  | queries i a => exact ringInv_of_stands h (ringStands_issue s a _ (by decide))
  | holdsLoad a count basis _ _ => exact ringInv_of_stands h (ringStands_of_comp rfl rfl rfl)
  | performsLoad a count basis _ => exact ringInv_of_stands h (ringStands_issue s _ _ (by decide))
  | commits result _ _ _ => exact ends (ringInv_of_stands h (ringStands_of_comp (swap_host s) (swap_port s) (swap_comp s))) _ _
  | armsSwap _ _ _ => exact ringInv_of_stands h (ringStands_of_comp rfl rfl rfl)
  | cancels _ =>
    refine ends (u := State.cancelOutstanding _) ?_ _ _
    unfold State.cancelOutstanding
    split
    · exact ringInv_of_stands h (ringStands_of_comp rfl rfl rfl)
    · exact blind.complete _ _ _ _ (ringInv_of_stands h (ringStands_of_comp rfl rfl rfl))
  | selects r result => exact ends (u := s.takeSelects r) (blind.apart rfl h) _ _
  | posts e result => exact ends (stable.present s e h) _ _
  | armsCorrupt _ => exact ends (u := { s with link := _ }) (blind.apart rfl h) _ _
  | armsDrop _ => exact ends (u := { s with link := _ }) (blind.apart rfl h) _ _

theorem ringInv_setStream (h : RingInv s) (i : StreamId) (c : Stream) : RingInv (s.setStream i c) :=
  ringInv_of_stands h (ringStands_of_comp rfl rfl rfl)

theorem ringInv_answered (h : RingInv s) (tag : Requester) : RingInv (s.answered tag) :=
  ringInv_of_stands h (ringStands_answered s tag)

/-- Every change leaves the ring's counters alone or moves them by its rule. -/
theorem ringInv_acts (h : RingInv s) (acts : Acts s t) : RingInv t := by
  have blind := commandBlind_ringInv
  have answered (tag : Requester) := ringInv_answered h tag
  have held {u : State} (hu : RingInv u) (c : Command) (status : CommandStatus) (result : CommandResult) :
      RingInv (u.endHeld c status result) := ringInv_of_stands hu (ringStands_endHeld u c status result)
  cases acts with
  | nothing => exact h
  | discards tag _ => exact ringInv_offWhenQuiet (answered tag)
  | answers tag _ => exact answered tag
  | writesHost w engine => exact ringInv_of_stands h ⟨engine, rfl, id⟩
  | loads off =>
    obtain ⟨counts, -, -, timer, stopped⟩ := h
    exact ⟨counts, by simp, by simp, timer, fun _ => stopped (.inl off)⟩
  | faultsAtEnable cause _ => exact ringInv_enterFault h cause
  | faults tag cause _ => exact ringInv_enterFault (answered tag) cause
  | resets _ => exact ringInv_offWhenQuiet (ringInv_enterResetting h)
  | hardResets source levels after =>
    cases after
    simp [RingInv, ringCountsAgree, State.reset, Completion.reset]
  | readies words ring config loading fields =>
    obtain ⟨threshold, size⟩ := controlFields_pos fields
    exact ringInv_enterReady (answered _) loading threshold size
  | notifiesCommand v =>
    unfold State.takeCommandNotify
    split
    · split
      · exact blind.present _ _ h
      · split
        · exact blind.present _ _ h
        · exact ringInv_of_stands h (RingStands.trans (t := { s with proc := s.proc.withProducer v.toNat }) ⟨rfl, rfl, id⟩
            (ringStands_lookForCommand _))
    · exact h
  | acknowledges v => exact ringInv_takeAcknowledge h v
  | notifiesNoRing n v => exact blind.present _ _ h
  | looks => exact ringInv_of_stands h (ringStands_lookForCommand s)
  | takes c _ owned =>
    have taken : RingInv s.afterTaking := ringInv_of_stands (answered .commandProcessor) ⟨rfl, rfl, id⟩
    exact ringInv_of_stands (ringInv_owned taken owned) (ringStands_lookForCommand _)
  | performsLoad a count basis _ _ _ => exact ringInv_of_stands h (ringStands_issue s _ _ (by decide))
  | takesChanges c working a count next entries _ _ _ =>
    have answered := answered .scheduleUnit
    generalize s.answered .scheduleUnit = u at answered
    unfold State.takeChanges
    split
    · exact held (u := { u with sched.load := .none }) (ringInv_of_stands answered (ringStands_of_comp rfl rfl rfl)) _ _ _
    · split
      · exact held (u := { u with sched.pending := _, sched.load := .none })
          (ringInv_of_stands answered (ringStands_of_comp rfl rfl rfl)) _ _ _
      · exact ringInv_of_stands answered (ringStands_issue u _ _ (by decide))
  | failsLoad c result _ _ _ =>
    exact held (u := { s.answered .scheduleUnit with sched.load := .none })
      (ringInv_of_stands (answered _) (ringStands_of_comp rfl rfl rfl)) _ _ _
  | endsQuery c status _ _ _ => exact held (answered _) _ _ _
  | closes i c _ _ _ _ => 
    exact held (u := State.unbindMarkers (State.setStream { s with freePool := s.freePool + (s.stream i).depth } i Stream.reset) i)
      (ringInv_of_stands h (ringStands_of_comp rfl rfl rfl)) _ _ _
  | restarts i c n _ _ _ _ => exact held (ringInv_setStream h i _) _ _ _
  | writesRing => exact ringInv_tryRingWrite h
  | writtenRing ready written => exact ringInv_handOn (ringInv_recordWritten h ready written)
  | servesLoss _ _ => exact ringInv_of_stands h (ringStands_enterEventLoss s)
  | servesCommand _ _ => exact ringInv_of_stands h (ringStands_readCommand s)
  | expiresHoldoff ready running =>
    obtain ⟨counts, config, room, timer, -⟩ := h
    exact ⟨counts, config, room, fun _ => timer (by simp [running]), by simp [ready]⟩
  | link acts => exact blind.linkActs h acts
  | stream acts =>
    have elsewhere := elsewhere_of_streamActs acts
    exact ringInv_of_stands h ⟨by rw [elsewhere.host], ringStands_comp elsewhere.records, elsewhere.inFlight (by simp) (by simp)⟩

/-- Settles O56: every change of `Acts` keeps the counters' agreement. -/
theorem ringCountsAgree_kept : Obligations.RingCountsAgree := keptByEveryStep_of_acts (fun _ _ h => h) ringInv_acts

end
end Sys2Proof.Machine

/-!
The work on the streams, said once: a property of the streams, their pool and their requests in the Port is kept by every change of
`Acts` when the link's work keeps it and each change of one stream does (`StreamStable`).
-/
namespace Sys2Proof.Machine

/-- The streams and their pool stand from `s` to `t`, and no request of a stream is issued. -/
def StreamsStand (s t : State) : Prop :=
  t.streams = s.streams ∧ t.freePool = s.freePool
  ∧ ∀ r ∈ t.port, r ∈ s.port ∨ ((∀ i, r.requester ≠ .descriptor i) ∧ ∀ i, r.requester ≠ .data i)

/-- A property of states that speaks of the streams, their pool and their requests alone, and that each change of them keeps. -/
structure StreamStable (Q : State → Prop) : Prop extends CommandBlind Q where
  stand : ∀ {s t : State}, StreamsStand s t → Q s → Q t
  reset : ∀ {t : State}, t.freePool = 512 → t.streams = Vector.replicate 32 Stream.reset → t.port = [] → Q t
  swapAny : ∀ {s : State}, Q s → Q s.swap
  producer : ∀ {s : State} (i : StreamId) (v : Nat), v < (s.stream i).ringSize → Q s → Q (s.setStream i { s.stream i with producer := v })
  accept : ∀ {s : State} (c : Command) (r : CommandRecord) (i : StreamId) (sh : Shape) (marker : Option (MarkerId × Nat)),
    shapeFields r = some sh → (s.stream i).state = .closed → sh.depth ≤ s.freePool → Q s → Q (s.acceptOpen c i sh marker)
  quiesce : ∀ {s : State} (i : StreamId) (operation : PendingOperation), (s.stream i).state ≠ .closed →
    (∀ n, operation = .restart n → n < (s.stream i).ringSize) → Q s → Q (s.setStream i ((s.stream i).quiesce operation))
  fault : ∀ {s : State} (i : StreamId) (cause : StreamFault) (n : Nat), Q s → Q (s.faultStream i cause n)
  readDescriptor : ∀ {s : State} (i : StreamId) (sh : Shape), (s.stream i).wantsDescriptor = true → Q s → Q (s.readDescriptor i sh)
  descriptorAnswered : ∀ {s : State} (i : StreamId), Q s → Q ((s.answered (.descriptor i)).descriptorAnswered i)
  takeDescriptor : ∀ {s : State} (i : StreamId) (words : Vector Word 4), (s.stream i).mayIssue = true →
    s.inFlight (.descriptor i) = true → Q s →
    Q ((s.answered (.descriptor i)).setStream i (({ s.stream i with descriptorInFlight := false } : Stream).takeDescriptor words))
  tryRead : ∀ {s : State} (i : StreamId), Q s → Q (s.tryRead i)
  tryWrite : ∀ {s : State} (i : StreamId), Q s → Q (s.tryWrite i)
  dataAnswered : ∀ {s : State} (i : StreamId), Q s → Q ((s.answered (.data i)).dataAnswered i)
  takeSamples : ∀ {s : State} (i : StreamId) (samples : List Word) (q : Request), (s.stream i).mayIssue = true → q ∈ s.port →
    q.requester = .data i → q.transfer = .read samples.length → Q s →
    Q ((s.answered (.data i)).setStream i (({ s.stream i with dataInFlight := none } : Stream).takeSamples samples))
  takeWrite : ∀ {s : State} (i : StreamId) (n : Nat), Q s → Q (s.setStream i ((s.stream i).takeWrite n))
  retireFinished : ∀ {s : State} (i : StreamId), Q s → Q (s.retireFinished i)
  drain : ∀ {s : State} (i : StreamId), (s.stream i).drainDone = true → Q s → Q (s.setStream i (s.stream i).drain)
  close : ∀ {s : State} (i : StreamId), (s.stream i).quiesceOver = true → Q s →
    Q (({ s with freePool := s.freePool + (s.stream i).depth } : State).setStream i Stream.reset)
  restart : ∀ {s : State} (i : StreamId) (named : Bool) (n : Nat), (s.stream i).quiesceOver = true →
    (s.stream i).pendingOperation = some (.restart n) → Q s → Q (s.setStream i ((s.stream i).restartAt named n))
  serve : ∀ {s : State} (i : StreamId), Q s → Q (s.serveRetirement i)

section
variable {s t : State}

/-- A change that leaves the streams, the pool and the Port alone. -/
theorem streamsStand_of_eq (streams : t.streams = s.streams) (pool : t.freePool = s.freePool) (port : t.port = s.port) :
    StreamsStand s t := ⟨streams, pool, fun _ mem => .inl (port ▸ mem)⟩

/-- A stream written twice holds what was written last. -/
theorem setStream_setStream (s : State) (i : StreamId) (c d : Stream) : (s.setStream i c).setStream i d = s.setStream i d := by
  simp [State.setStream]

theorem streamsStand_answered (s : State) (tag : Requester) : StreamsStand s (s.answered tag) :=
  ⟨rfl, rfl, fun _ mem => .inl (List.mem_filter.1 mem).1⟩

/-- A request of a block that is no stream's. -/
theorem streamsStand_issue (s : State) {tag : Requester} (a : Addr) (x : Transfer) (descriptor : ∀ i, tag ≠ .descriptor i)
    (data : ∀ i, tag ≠ .data i) : StreamsStand s (s.issue tag a x) := by
  refine ⟨rfl, rfl, fun r mem => ?_⟩
  rw [issue_port, List.mem_append, List.mem_singleton] at mem
  rcases mem with mem | rfl
  · exact .inl mem
  · exact .inr ⟨descriptor, data⟩

end

namespace StreamStable
variable {Q : State → Prop} (stable : StreamStable Q) {s t : State}
include stable

/-- What leaves the streams, their pool and the Port alone keeps the property. -/
theorem alone (h : Q s) (streams : t.streams = s.streams) (pool : t.freePool = s.freePool) (port : t.port = s.port) : Q t :=
  stable.stand (streamsStand_of_eq streams pool port) h

theorem answered (tag : Requester) (h : Q s) : Q (s.answered tag) := stable.stand (streamsStand_answered s tag) h

theorem readCommand (h : Q s) : Q s.readCommand := by
  unfold State.readCommand
  split
  · exact h
  · exact stable.stand (streamsStand_issue _ _ _ (by simp) (by simp))
      (stable.alone (t := { s.reserve with proc.state := .reading }) h rfl rfl rfl)

theorem lookForCommand (h : Q s) : Q s.lookForCommand := by
  unfold State.lookForCommand State.beginCommand
  split
  · split
    · exact stable.readCommand h
    · exact stable.alone h rfl rfl rfl
  · exact h

theorem endCommand (c : Command) (status : CommandStatus) (result : CommandResult) (h : Q s) : Q (s.endCommand c status result) :=
  stable.alone h rfl rfl rfl

theorem endHeld (c : Command) (status : CommandStatus) (result : CommandResult) (h : Q s) : Q (s.endHeld c status result) :=
  stable.lookForCommand (stable.endCommand c status result h)

theorem offWhenQuiet (h : Q s) : Q s.offWhenQuiet := by
  unfold State.offWhenQuiet
  split
  · exact stable.reset rfl rfl rfl
  · exact h

theorem readChanges (working : Bank) (a : Addr) (count next : Nat) (h : Q s) : Q (s.readChanges working a count next) :=
  stable.stand (streamsStand_issue _ _ _ (by simp) (by simp))
    (stable.alone (t := { s with sched.load := .performing working a count next }) h rfl rfl rfl)

theorem takeChanges (c : Command) (working : Bank) (a : Addr) (count next : Nat) (entries : List Word) (h : Q s) :
    Q (s.takeChanges c working a count next entries) := by
  unfold State.takeChanges
  split
  · exact stable.endHeld _ _ _ (stable.alone (t := { s with sched.load := .none }) h rfl rfl rfl)
  · next done _ =>
    split
    · exact stable.endHeld _ _ _ (stable.alone (t := { s with sched.pending := done, sched.load := .none }) h rfl rfl rfl)
    · exact stable.readChanges _ _ _ _ h

theorem cancelOutstanding (h : Q s) : Q s.cancelOutstanding := by
  unfold State.cancelOutstanding
  split
  · exact h
  · exact stable.alone h rfl rfl rfl

/-- A taken record keeps the property, whatever its owner makes of it. -/
theorem owned {c : Command} (h : Q s) (owned : Owned c s t) : Q t := by
  cases owned with
  | ends status result => exact stable.endCommand _ _ _ h
  | configures k _ => exact stable.alone h rfl rfl rfl
  | startsNow _ => exact stable.endCommand _ _ _ (stable.startedNow h)
  | startsWaiting w timeout _ => exact stable.alone h rfl rfl rfl
  | stopsWaiting _ => exact stable.linkStable.enterStopped _ (stable.alone h rfl rfl rfl)
  | stopsRunning _ => exact stable.linkStable.stopWhenDone (stable.alone h rfl rfl rfl)
  | joinsStop _ _ => exact stable.alone h rfl rfl rfl
  | opens r i sh marker shape closed _ pool => exact stable.accept c r i sh marker shape closed pool h
  | closes i opened _ => exact stable.alone (stable.quiesce i .close opened (by simp) h) rfl rfl rfl
  | restarts i n opened inside =>
    exact stable.alone (stable.quiesce i (.restart n) opened (fun _ e => by cases e; exact inside) h) rfl rfl rfl
  | queries i a =>
    exact stable.alone (s := s.issue .streamTable a (.write (s.snapshot i)))
      (stable.stand (streamsStand_issue _ _ _ (by simp) (by simp)) h) rfl rfl rfl
  | holdsLoad a count basis _ _ => exact stable.alone h rfl rfl rfl
  | performsLoad a count basis _ => exact stable.alone (stable.readChanges _ _ _ _ h) rfl rfl rfl
  | commits result _ _ _ => exact stable.endCommand _ _ _ (stable.swapAny h)
  | armsSwap _ _ _ => exact stable.alone h rfl rfl rfl
  | cancels _ =>
    exact stable.endCommand _ _ _ (stable.cancelOutstanding (stable.alone (t := { s with sched.swapArmed := false }) h rfl rfl rfl))
  | selects r result => exact stable.alone h rfl rfl rfl
  | posts e result => exact stable.endCommand _ _ _ (stable.present s e h)
  | armsCorrupt _ => exact stable.alone h rfl rfl rfl
  | armsDrop _ => exact stable.alone h rfl rfl rfl

/-- A notify changes at most one producer (R89, R152, R173). -/
theorem takeCommandNotify (v : BitVec 16) (h : Q s) : Q (s.takeCommandNotify v) := by
  unfold State.takeCommandNotify
  split
  · split
    · exact stable.present _ _ h
    · split
      · exact stable.present _ _ h
      · exact stable.lookForCommand (stable.alone (t := { s with proc := s.proc.withProducer v.toNat }) h rfl rfl rfl)
  · exact h

theorem takeAcknowledge (v : BitVec 16) (h : Q s) : Q (s.takeAcknowledge v) := by
  unfold State.takeAcknowledge
  split
  · split
    · exact stable.present _ _ h
    · split
      · exact h
      · split
        · exact stable.present _ _ h
        · exact stable.alone h rfl rfl rfl
  · exact h

theorem takeBlockNotify (i : StreamId) (v : BitVec 16) (h : Q s) : Q (s.takeBlockNotify i v) := by
  unfold State.takeBlockNotify
  dsimp only
  split
  · split
    · exact stable.present _ _ h
    · split
      · exact stable.present _ _ h
      · next inside =>
        split
        · exact stable.present _ _ h
        · exact stable.producer i v.toNat (not_le.1 inside) h
  · exact h

theorem storeElements (i : StreamId) (n : Nat) (h : Q s) : Q (s.storeElements i n) := by
  have stored := stable.takeWrite i n h
  unfold State.storeElements
  dsimp only
  split
  · exact stable.retireFinished i stored
  · exact stored

theorem dataFailed (i : StreamId) (cause : StreamFault) (h : Q s) : Q (s.dataFailed i cause) := by
  unfold State.dataFailed
  split
  · exact h
  · exact stable.fault i cause _ h

theorem tryRingWrite (h : Q s) : Q s.tryRingWrite := by
  unfold State.tryRingWrite
  split
  · split
    · exact stable.stand (streamsStand_issue _ _ _ (by simp) (by simp)) h
    · exact h
  · exact h

theorem handOn (h : Q s) : Q s.handOn := by
  rcases handOn_cases s with ⟨-, e⟩ | ⟨-, -, ⟨-, e⟩ | ⟨-, -, e⟩ | ⟨-, -, ⟨i, -, e⟩ | ⟨-, e⟩⟩⟩
  · rwa [e]
  · rw [e]
    exact stable.alone h rfl rfl rfl
  · rw [e]
    exact stable.readCommand h
  · rw [e]
    exact stable.serve i h
  · rwa [e]

/-- Every change of one stream's rows keeps the property. -/
theorem streamActs (h : Q s) (acts : StreamActs s t) : Q t := by
  cases acts with
  | notifiesBlock i v => exact stable.takeBlockNotify i v h
  | readsDescriptor i sh _ wants _ => exact stable.readDescriptor i sh wants h
  | answersDescriptor i _ => exact stable.descriptorAnswered i h
  | takesDescriptor i words _ may asked =>
    unfold State.judgeDescriptor
    split
    · rw [stream_descriptorAnswered, State.descriptorAnswered, setStream_setStream]
      exact stable.takeDescriptor i words may asked h
    · exact stable.fault i _ _ (stable.descriptorAnswered i h)
  | failsDescriptor i n _ => exact stable.fault i _ _ (stable.descriptorAnswered i h)
  | readsData i => exact stable.tryRead i h
  | answersData i _ => exact stable.dataAnswered i h
  | takesData i samples q _ may asked tag read =>
    rw [stream_dataAnswered, State.dataAnswered, setStream_setStream]
    exact stable.takeSamples i samples q may asked tag read h
  | failsData i cause _ => exact stable.dataFailed i cause (stable.dataAnswered i h)
  | writesData i => exact stable.tryWrite i h
  | storesData i n _ _ => exact stable.storeElements i n (stable.dataAnswered i h)
  | drains i _ done => exact stable.retireFinished i (stable.drain i done h)
  | servesRetirement i _ _ => exact stable.serve i h

/-- Every change of `Acts` keeps the property. -/
theorem acts (h : Q s) (acts : Acts s t) : Q t := by
  cases acts with
  | nothing => exact h
  | discards tag _ => exact stable.offWhenQuiet (stable.answered tag h)
  | answers tag _ => exact stable.answered tag h
  | writesHost w engine => exact stable.alone h rfl rfl rfl
  | loads off =>
    exact stable.stand (streamsStand_issue _ _ _ (by simp) (by simp))
      (stable.alone (t := { s with host.engine := .loading }) h rfl rfl rfl)
  | faultsAtEnable cause _ => exact stable.alone h rfl rfl rfl
  | faults tag cause _ => exact stable.alone (stable.answered tag h) rfl rfl rfl
  | resets _ => exact stable.offWhenQuiet (stable.alone h rfl rfl rfl)
  | hardResets source levels after =>
    cases after
    exact stable.reset rfl rfl rfl
  | readies words ring config _ _ => exact stable.alone (stable.answered .hostWindow h) rfl rfl rfl
  | notifiesCommand v => exact stable.takeCommandNotify v h
  | acknowledges v => exact stable.takeAcknowledge v h
  | notifiesNoRing n v => exact stable.present _ _ h
  | looks => exact stable.lookForCommand h
  | takes c _ owned =>
    have taken : Q s.afterTaking := stable.alone (stable.answered .commandProcessor h) rfl rfl rfl
    exact stable.lookForCommand (stable.owned taken owned)
  | performsLoad a count basis _ _ _ => exact stable.readChanges _ _ _ _ h
  | takesChanges c working a count next entries _ _ _ => exact stable.takeChanges _ _ _ _ _ _ (stable.answered _ h)
  | failsLoad c result _ _ _ =>
    exact stable.endHeld _ _ _ (stable.alone (t := { s.answered .scheduleUnit with sched.load := .none }) (stable.answered _ h) rfl rfl rfl)
  | endsQuery c status _ _ _ => exact stable.endHeld _ _ _ (stable.answered _ h)
  | closes i c _ finished _ _ => exact stable.endHeld _ _ _ (stable.alone (stable.close i finished h) rfl rfl rfl)
  | restarts i c n _ finished operation _ => exact stable.endHeld _ _ _ (stable.restart i _ n finished operation h)
  | writesRing => exact stable.tryRingWrite h
  | writtenRing _ _ =>
    exact stable.handOn (stable.alone (t := { s.answered .completionUnit with comp := s.comp.recordWritten })
      (stable.answered _ h) rfl rfl rfl)
  | servesLoss _ _ => exact stable.alone h rfl rfl rfl
  | servesCommand _ _ => exact stable.readCommand h
  | expiresHoldoff _ _ => exact stable.alone h rfl rfl rfl
  | link acts => exact stable.linkActs h acts
  | stream acts => exact stable.streamActs h acts

end StreamStable

end Sys2Proof.Machine

/-!
The staging pool and the staging queues (R41, R42): what one stream's queue owes its depth, what the changes of a stream do to it, and
the statement that every step keeps the pool's sum and the queues' bounds.
-/
namespace Sys2Proof.Machine

/-- What `StagingInv` asks of one stream by itself. -/
def Stream.stagingOk (c : Stream) : Prop :=
  (c.state = .closed ↔ c.shape = none) ∧ c.stagingFits ∧ (c.drained = true → c.state = .quiescing ∧ c.dataInFlight = none)

/-- Every data read in the Port is one that its stream knows of. -/
def State.readsKnown (s : State) : Prop :=
  ∀ r ∈ s.port, ∀ (i : StreamId) (n : Nat), r.requester = .data i → r.transfer = .read n → (s.stream i).reads n

section
variable {s t : State}

theorem stagingInv_iff :
    StagingInv s ↔ s.freePool + s.allocated = 512 ∧ (∀ i : StreamId, (s.stream i).stagingOk) ∧ s.readsKnown := by
  constructor
  · rintro ⟨pool, closed, fits, drained, reads⟩
    exact ⟨pool, fun i => ⟨closed i, fits i, drained i⟩, reads⟩
  · rintro ⟨pool, ok, reads⟩
    exact ⟨pool, fun i => (ok i).1, fun i => (ok i).2.1, fun i => (ok i).2.2, reads⟩

/-! ## The words allocated -/

/-- The words allocated, as a sum over the streams. -/
theorem allocated_eq_sum (s : State) : s.allocated = ∑ i : StreamId, (s.stream i).depth := (Fin.sum_univ_def _).symm

/-- A stream replaced takes its new depth for its old one. -/
theorem allocated_setStream (s : State) (i : StreamId) (c : Stream) :
    (s.setStream i c).allocated + (s.stream i).depth = s.allocated + c.depth := by
  rw [allocated_eq_sum, allocated_eq_sum, ← Finset.add_sum_erase _ _ (Finset.mem_univ i),
    ← Finset.add_sum_erase _ (fun j => (s.stream j).depth) (Finset.mem_univ i), stream_setStream_self]
  have others : ∀ j ∈ Finset.univ.erase i, ((s.setStream i c).stream j).depth = (s.stream j).depth := fun j mem => by
    rw [stream_setStream_of_ne s c (Finset.ne_of_mem_erase mem)]
  rw [Finset.sum_congr rfl others]
  omega

/-- Streams of the same shapes take the same words. -/
theorem allocated_congr (shape : ∀ i : StreamId, (t.stream i).shape = (s.stream i).shape) : t.allocated = s.allocated := by
  rw [allocated_eq_sum, allocated_eq_sum]
  exact Finset.sum_congr rfl fun i _ => by rw [Stream.depth, Stream.depth, shape i]

/-! ## What leaves the pool alone -/

/-- From `s` to `t` the pool, every shape and every data request in flight stand, no data read is issued, and each queue that kept its
bound keeps it. -/
def StagingStands (s t : State) : Prop :=
  t.freePool = s.freePool ∧ (∀ r ∈ t.port, (∀ i, r.requester ≠ .data i) ∨ r ∈ s.port)
  ∧ ∀ i : StreamId, (t.stream i).shape = (s.stream i).shape ∧ (t.stream i).dataInFlight = (s.stream i).dataInFlight
    ∧ ((s.stream i).stagingOk → (t.stream i).stagingOk)

theorem stagingInv_of_stands (h : StagingInv s) (k : StagingStands s t) : StagingInv t := by
  obtain ⟨pool, ok, reads⟩ := stagingInv_iff.1 h
  obtain ⟨samePool, port, streams⟩ := k
  refine stagingInv_iff.2 ⟨?_, fun i => (streams i).2.2 (ok i), fun r mem i n tag transfer => ?_⟩
  · rw [samePool, allocated_congr fun i => (streams i).1, pool]
  · rcases port r mem with other | mem
    · exact absurd tag (other i)
    · have known := reads r mem i n tag transfer
      obtain ⟨shape, data, -⟩ := streams i
      rwa [Stream.reads, shape, data]

theorem StagingStands.trans {u : State} (h : StagingStands s t) (k : StagingStands t u) : StagingStands s u := by
  obtain ⟨pool, port, streams⟩ := h
  obtain ⟨pool', port', streams'⟩ := k
  refine ⟨pool'.trans pool, fun r mem => ?_, fun i => ?_⟩
  · rcases port' r mem with other | mem
    · exact .inl other
    · exact port r mem
  · obtain ⟨shape, data, ok⟩ := streams i
    obtain ⟨shape', data', ok'⟩ := streams' i
    exact ⟨shape'.trans shape, data'.trans data, fun h => ok' (ok h)⟩

theorem stagingStands_of_stand (h : StreamsStand s t) : StagingStands s t := by
  obtain ⟨streams, pool, port⟩ := h
  refine ⟨pool, fun r mem => ?_, fun i => ?_⟩
  · rcases port r mem with old | ⟨-, other⟩
    · exact .inr old
    · exact .inl other
  · rw [stream_congr streams i]
    exact ⟨rfl, rfl, id⟩

/-- A change that leaves the streams, the pool and the Port alone. -/
theorem stagingStands_of_streams (pool : t.freePool = s.freePool) (port : t.port = s.port) (streams : t.streams = s.streams) :
    StagingStands s t := stagingStands_of_stand (streamsStand_of_eq streams pool port)

/-- One stream changes, in shape and request in flight as before. -/
theorem stagingStands_setStream (s : State) (i : StreamId) (c : Stream) (shape : c.shape = (s.stream i).shape)
    (data : c.dataInFlight = (s.stream i).dataInFlight) (ok : (s.stream i).stagingOk → c.stagingOk) :
    StagingStands s (s.setStream i c) := by
  refine ⟨rfl, fun _ mem => .inr mem, fun j => ?_⟩
  rw [stream_setStream]
  split
  · next e => subst e; exact ⟨shape, data, ok⟩
  · exact ⟨rfl, rfl, id⟩

/-- Retirements leave staging alone: they change a stream's list, cursor and retire index (R94). -/
theorem stagingStands_retireFinished (s : State) (i : StreamId) : StagingStands s (s.retireFinished i) := by
  have frame := retireFinished_frame s i
  refine ⟨by rw [frame], fun r mem => .inr (by rwa [frame] at mem), fun j => ?_⟩
  rw [stream_retireFinished]
  exact ⟨rfl, rfl, id⟩

/-- A served retirement leaves staging alone (R96). -/
theorem stagingStands_serveRetirement (s : State) (i : StreamId) : StagingStands s (s.serveRetirement i) := by
  have reports (e : Entry) (status : BlockStatus) : StagingStands s (s.retireReporting i e status) :=
    StagingStands.trans (t := s.enter (.blockDone (blockDoneOf i (s.stream i).ringSize e status)))
      (stagingStands_of_streams rfl rfl rfl) (stagingStands_setStream _ i _ rfl rfl id)
  unfold State.serveRetirement
  split
  · exact stagingStands_of_streams rfl rfl rfl
  · split
    · exact stagingStands_of_streams rfl rfl rfl
    · dsimp only
      split
      · exact reports _ _
      · split
        · exact reports _ _
        · split
          · exact reports _ _
          · exact (reports _ _).trans (stagingStands_setStream _ i _ rfl rfl id)

/-! ## What the link's work does to one queue -/

/-- A swap moves a stream between OPEN and LIVE and leaves its queue (R39). -/
theorem stagingOk_moveAtSwap {c : Stream} (h : c.stagingOk) (active : Bank) (i : StreamId) :
    (moveAtSwap active i c).shape = c.shape ∧ (moveAtSwap active i c).dataInFlight = c.dataInFlight
    ∧ (moveAtSwap active i c).stagingOk := by
  obtain ⟨closed, fits, drained⟩ := h
  rw [moveAtSwap_eq_moved]
  unfold Stream.moved
  split
  · exact ⟨rfl, rfl, closed, fits, drained⟩
  · next opened =>
    split
    · refine ⟨rfl, rfl, ?_, fits, fun d => ?_⟩
      · simpa [opened] using closed
      · simp [opened] at drained; simp [drained] at d
    · exact ⟨rfl, rfl, closed, fits, drained⟩
  · next live =>
    split
    · exact ⟨rfl, rfl, closed, fits, drained⟩
    · refine ⟨rfl, rfl, ?_, fits, fun d => ?_⟩
      · simpa [live] using closed
      · simp [live] at drained; simp [drained] at d
  · exact ⟨rfl, rfl, closed, fits, drained⟩
  · exact ⟨rfl, rfl, closed, fits, drained⟩

/-- A turn of an out-stream takes samples from staging or leaves it (R107, R108). -/
theorem samples_outStreamTurn (f : FrameNo) (s : State) (i j : StreamId) :
    ((outStreamTurn f s i).stream j).samples.length ≤ (s.stream j).samples.length := by
  by_cases other : j = i
  case neg => rw [stream_outStreamTurn_of_ne f s other]
  subst other
  unfold outStreamTurn
  dsimp only
  split
  · exact le_rfl
  · split
    · split
      · unfold State.goodTurn
        dsimp only
        rw [stream_retireFinished, stream_setStream_self]
        simp
      · unfold State.underrunTurn
        dsimp only
        split
        · rw [stream_setStream_self]
        · rw [present_stream, stream_setStream_self]
    · exact le_rfl

/-- A queue that keeps its bound keeps it with fewer samples and nothing else of it changed. -/
theorem stagingFits_of_fewer {c d : Stream} (shape : d.shape = c.shape) (data : d.dataInFlight = c.dataInFlight)
    (elements : d.elements = c.elements) (fewer : d.samples.length ≤ c.samples.length) (h : c.stagingFits) : d.stagingFits := by
  unfold Stream.stagingFits at h ⊢
  rw [shape, data, elements]
  split at h
  · trivial
  · split at h
    · exact ⟨h.1, le_trans (Nat.add_le_add_right fewer _) h.2⟩
    · exact ⟨List.eq_nil_of_length_eq_zero (by rw [h.1] at fewer; simpa using fewer), h.2⟩

theorem stagingStands_outStreamTurn (f : FrameNo) (s : State) (i : StreamId) : StagingStands s (outStreamTurn f s i) := by
  have frame := outStreamTurn_frame s f i
  refine ⟨by rw [frame], fun r mem => .inr (by rwa [frame] at mem), fun j => ?_⟩
  have fewer := samples_outStreamTurn f s i j
  rw [stream_outStreamTurn] at fewer ⊢
  refine ⟨rfl, rfl, fun ⟨closed, fits, drained⟩ => ⟨closed, ?_, drained⟩⟩
  exact stagingFits_of_fewer (c := s.stream j) rfl rfl rfl fewer fits

/-- A turn of an in-stream joins staging only where it fits (R123). -/
theorem stagingFits_takeInTurn {s : State} {i : StreamId} {sh : Shape} {mode : TagMode} (shape : (s.stream i).shape = some sh)
    (kind : sh.kind = .inStream mode) (f : FrameNo) (turn : List Element) (h : (s.stream i).stagingFits) :
    ((s.takeInTurn i sh f turn).stream i).stagingFits := by
  have staged : (s.stream i).stagedWords = (s.stream i).samples.length + sh.kind.wordsPerElement * (s.stream i).elements.length := by
    rw [Stream.stagedWords, shape]
  unfold State.takeInTurn
  dsimp only
  split
  · next room =>
    rw [stream_setStream_self]
    simp only [Stream.stagingFits, shape, kind] at h staged room ⊢
    obtain ⟨empty, -⟩ := h
    refine ⟨empty, ?_⟩
    rw [List.length_append, Nat.mul_add]
    omega
  · split
    · rw [stream_setStream_self]
      exact h
    · rw [present_stream, stream_setStream_self]
      exact h

theorem stagingStands_inStreamTurn (b : Bank) (f : FrameNo) (r : Resolution) (words : List Word) (s : State) (i : StreamId) :
    StagingStands s (inStreamTurn b f r words s i) := by
  have frame := inStreamTurn_frame s b f r words i
  refine ⟨by rw [frame], fun r mem => .inr (by rwa [frame] at mem), fun j => ?_⟩
  have stream := stream_inStreamTurn b f r words s i j
  refine ⟨by rw [stream], by rw [stream], fun ⟨closed, fits, drained⟩ => ⟨by rw [stream]; exact closed, ?_, by rw [stream]; exact drained⟩⟩
  by_cases other : j = i
  case neg => rwa [stream_inStreamTurn_of_ne b f r words s other]
  subst other
  unfold inStreamTurn
  dsimp only
  split
  · exact fits
  · next sh shape =>
    split
    · exact fits
    · next mode kind =>
      split
      · exact stagingFits_takeInTurn shape kind f _ fits
      · exact fits

theorem stagingStands_present (s : State) (e : Event) : StagingStands s (s.present e) :=
  stagingStands_of_streams (by simp) (by simp) (by simp)

/-- A swap leaves every queue (R39). -/
theorem stagingInv_swap (h : StagingInv s) : StagingInv s.swap := by
  obtain ⟨-, ok, -⟩ := stagingInv_iff.1 h
  refine stagingInv_of_stands h ⟨swap_freePool s, fun r mem => .inr (by rwa [swap_port] at mem), fun i => ?_⟩
  obtain ⟨shape, data, moved⟩ := stagingOk_moveAtSwap (ok i) s.sched.pending i
  rw [stream_swap]
  exact ⟨shape, data, fun _ => moved⟩

/-- The link's work leaves the pool alone and every queue within its depth. -/
theorem commandBlind_stagingInv : CommandBlind StagingInv where
  present s e h := stagingInv_of_stands h (stagingStands_present s e)
  complete _ _ _ _ h := stagingInv_of_stands h (stagingStands_of_streams rfl rfl rfl)
  apart k h := stagingInv_of_stands h (stagingStands_of_streams k.freePool k.port k.streams)
  swap _ _ h := stagingInv_swap h
  outTurn f s i h := stagingInv_of_stands h (stagingStands_outStreamTurn f s i)
  inTurn b f r words s i h := stagingInv_of_stands h (stagingStands_inStreamTurn b f r words s i)

/-! ## What the changes of one stream do to its queue -/

/-- A stream fault leaves staging as it stands (R46, R48, R49). -/
theorem stagingStands_faultStream (s : State) (i : StreamId) (cause : StreamFault) (n : Nat) :
    StagingStands s (s.faultStream i cause n) := by
  have faulted (state : (s.stream i).state ≠ .closed) (calm : (s.stream i).state ≠ .quiescing) :
      StagingStands s (s.setStream i { s.stream i with state := .faulted, faultCause := some cause }) := by
    refine stagingStands_setStream s i _ rfl rfl fun ⟨closed, fits, drained⟩ => ⟨?_, fits, fun d => absurd (drained d).1 calm⟩
    simpa [state] using closed
  unfold State.faultStream
  dsimp only
  split
  · exact stagingStands_of_streams rfl rfl rfl
  · next state => exact (faulted (by simp [state]) (by simp [state])).trans (stagingStands_present _ _)
  · next state => exact (faulted (by simp [state]) (by simp [state])).trans (stagingStands_present _ _)
  · exact stagingStands_of_streams rfl rfl rfl
  · split
    · exact (stagingStands_setStream s i { s.stream i with faultCause := some cause } rfl rfl id).trans (stagingStands_present _ _)
    · exact stagingStands_of_streams rfl rfl rfl

/-- An entry to QUIESCING keeps the queue (R52). -/
theorem stagingOk_quiesce {c : Stream} (h : c.stagingOk) (operation : PendingOperation) (opened : c.state ≠ .closed) :
    (c.quiesce operation).stagingOk := by
  obtain ⟨closed, fits, -⟩ := h
  exact ⟨by simpa [Stream.quiesce, opened] using closed, fits, fun d => by simp [Stream.quiesce] at d⟩

/-- A drain can end only with no request of the stream in flight (R53). -/
theorem drainDone_iff (c : Stream) :
    c.drainDone = true ↔ c.state = .quiescing ∧ c.drained = false ∧ c.descriptorInFlight = false ∧ c.dataInFlight = none := by
  simp [Stream.drainDone, Stream.requestInFlight, and_assoc]

/-- The end of a RESTART empties the queue (R56). -/
theorem stagingOk_restartAt {c : Stream} (h : c.stagingOk) (quiescing : c.state = .quiescing) (quiet : c.dataInFlight = none)
    (named : Bool) (n : Nat) : (c.restartAt named n).stagingOk := by
  obtain ⟨closed, -, -⟩ := h
  refine ⟨?_, ?_, fun d => by simp [Stream.restartAt] at d⟩
  · rw [quiescing] at closed
    cases named <;> simpa [Stream.restartAt] using closed
  · simp only [Stream.stagingFits, Stream.restartAt, quiet]
    split
    · trivial
    · split <;> simp

/-- A quiesce that is over has its drain finished and nothing left in the list (R54). -/
theorem quiesceOver_iff (c : Stream) : c.quiesceOver = true ↔ c.state = .quiescing ∧ c.drained = true ∧ c.list = [] := by
  simp [Stream.quiesceOver, and_assoc]

/-- A CLOSED context is within its bounds. -/
theorem stagingOk_reset : Stream.reset.stagingOk := ⟨by simp [Stream.reset], trivial, by simp [Stream.reset]⟩

/-- The context of a newly opened stream has an empty queue (R45). -/
theorem stagingOk_openAs (sh : Shape) : (Stream.openAs sh).stagingOk := by
  refine ⟨by simp [Stream.openAs], ?_, fun d => by simp [Stream.openAs, Stream.reset] at d⟩
  simp only [Stream.stagingFits, Stream.openAs, Stream.reset]
  split <;> simp

/-- A marker bound changes no queue. -/
theorem stagingStands_bindMarker (s : State) (i : StreamId) (marker : Option (MarkerId × Nat)) :
    StagingStands s (s.bindMarker i marker) := by
  unfold State.bindMarker
  split
  · exact stagingStands_of_streams rfl rfl rfl
  · exact stagingStands_of_streams rfl rfl rfl

/-- A stream and its depth leave the pool or return to it together (R41, R45, R55). -/
theorem stagingInv_exchange (h : StagingInv s) (i : StreamId) (c : Stream) (pool : Nat) (ok : c.stagingOk)
    (sum : pool + c.depth = s.freePool + (s.stream i).depth)
    (unread : ∀ n, ¬ (s.stream i).reads n) : StagingInv (({ s with freePool := pool } : State).setStream i c) := by
  obtain ⟨total, queues, reads⟩ := stagingInv_iff.1 h
  refine stagingInv_iff.2 ⟨?_, fun j => ?_, fun r mem j n tag transfer => ?_⟩
  · have words := allocated_setStream { s with freePool := pool } i c
    have same : ({ s with freePool := pool } : State).allocated = s.allocated := rfl
    have old : ({ s with freePool := pool } : State).stream i = s.stream i := rfl
    rw [same, old] at words
    simp only [setStream_freePool]
    omega
  · rw [stream_setStream]
    split
    · exact ok
    · exact queues j
  · have known := reads r mem j n tag transfer
    rw [stream_setStream]
    split
    · next e => subst e; exact absurd known (unread n)
    · exact known

/-- An accepted OPEN STREAM takes its depth from the pool (R45). -/
theorem stagingInv_acceptOpen (h : StagingInv s) (c : Command) (i : StreamId) (sh : Shape) (marker : Option (MarkerId × Nat))
    (closed : (s.stream i).state = .closed) (pool : sh.depth ≤ s.freePool) : StagingInv (s.acceptOpen c i sh marker) := by
  obtain ⟨-, queues, -⟩ := stagingInv_iff.1 h
  have shape := (queues i).1.1 closed
  have opened := stagingInv_exchange h i (Stream.openAs sh) (s.freePool - sh.depth) (stagingOk_openAs sh)
    (by simp only [Stream.depth, Stream.openAs, shape]; omega) (by simp [Stream.reads, shape])
  exact stagingInv_of_stands (stagingInv_of_stands opened (stagingStands_bindMarker _ i marker)) (stagingStands_of_streams rfl rfl rfl)

/-- The end of a CLOSE returns the depth to the pool (R55). -/
theorem stagingInv_close (h : StagingInv s) (i : StreamId) (finished : (s.stream i).quiesceOver = true) :
    StagingInv (({ s with freePool := s.freePool + (s.stream i).depth } : State).setStream i Stream.reset) := by
  obtain ⟨-, queues, -⟩ := stagingInv_iff.1 h
  obtain ⟨-, drained, -⟩ := (quiesceOver_iff _).1 finished
  have quiet := ((queues i).2.2 drained).2
  refine stagingInv_exchange h i Stream.reset (s.freePool + (s.stream i).depth) stagingOk_reset rfl fun n => ?_
  unfold Stream.reads
  split
  · exact not_false
  · simp [quiet]

/-! ## Data requests -/

/-- A data request answered: the Port holds no request of the stream's tag, and the stream knows of none; its context may then change
within its bounds. -/
theorem stagingInv_dataAnswered (h : StagingInv s) (i : StreamId) (c : Stream) (shape : c.shape = (s.stream i).shape)
    (ok : c.stagingOk) : StagingInv ((s.answered (.data i)).setStream i c) := by
  obtain ⟨total, queues, reads⟩ := stagingInv_iff.1 h
  refine stagingInv_iff.2 ⟨?_, fun j => ?_, fun r mem j n tag transfer => ?_⟩
  · have words := allocated_setStream (s.answered (.data i)) i c
    have same : (s.answered (.data i)).allocated = s.allocated := rfl
    have depth : c.depth = (s.stream i).depth := by rw [Stream.depth, Stream.depth, shape]
    rw [same, answered_stream] at words
    have pool : ((s.answered (.data i)).setStream i c).freePool = s.freePool := rfl
    omega
  · rw [stream_setStream]
    split
    · exact ok
    · exact queues j
  · rw [setStream_port, answered_port] at mem
    obtain ⟨mem, other⟩ := List.mem_filter.1 mem
    have ne : j ≠ i := by
      rintro rfl
      simp [tag] at other
    rw [stream_setStream_of_ne _ _ ne]
    exact reads r mem j n tag transfer

/-- A stream with no data request in flight is within its bounds when it is with one. -/
theorem stagingOk_quiet {c : Stream} (h : c.stagingOk) : ({ c with dataInFlight := none } : Stream).stagingOk := by
  obtain ⟨closed, fits, drained⟩ := h
  refine ⟨closed, ?_, fun d => ⟨(drained d).1, rfl⟩⟩
  unfold Stream.stagingFits at fits ⊢
  dsimp only
  split at fits
  · trivial
  · split at fits
    · exact ⟨fits.1, by simpa using le_trans (Nat.le_add_right _ _) fits.2⟩
    · exact fits

/-- The samples of a read take its place in staging (R104). -/
theorem markSamples_length (ends : Bool) (words : List Word) : (markSamples ends words).length = words.length := by
  induction words using markSamples.induct with
  | case1 => rfl
  | case2 => rfl
  | case3 w x rest ih => simpa [markSamples] using ih

theorem stagingOk_takeSamples {c : Stream} (h : c.stagingOk) (samples : List Word) (read : c.reads samples.length)
    (may : c.mayIssue = true) : (({ c with dataInFlight := none } : Stream).takeSamples samples).stagingOk
      ∧ (({ c with dataInFlight := none } : Stream).takeSamples samples).shape = c.shape := by
  have quiet := stagingOk_quiet h
  unfold Stream.takeSamples
  split
  · exact ⟨quiet, rfl⟩
  · obtain ⟨closed, fits, drained⟩ := h
    have undrained : c.drained ≠ true := fun d => by simp [Stream.mayIssue, (drained d).1] at may
    refine ⟨⟨closed, ?_, fun d => absurd d undrained⟩, rfl⟩
    unfold Stream.stagingFits Stream.reads at *
    dsimp only
    split at fits
    · trivial
    · next sh shape =>
      simp only [shape] at read
      obtain ⟨lane, asked⟩ := read
      split at fits
      · refine ⟨fits.1, ?_⟩
        rw [asked] at fits
        simpa [markSamples_length] using fits.2
      · next kind => simp [kind, StreamKind.lane] at lane

/-- The elements of a write leave staging (R129). -/
theorem stagingOk_takeWrite {c : Stream} (h : c.stagingOk) (n : Nat) :
    (c.takeWrite n).stagingOk ∧ (c.takeWrite n).shape = c.shape ∧ (c.takeWrite n).dataInFlight = c.dataInFlight := by
  unfold Stream.takeWrite
  split
  · exact ⟨h, rfl, rfl⟩
  · obtain ⟨closed, fits, drained⟩ := h
    refine ⟨⟨closed, ?_, drained⟩, rfl, rfl⟩
    unfold Stream.stagingFits at fits ⊢
    dsimp only
    split at fits
    · trivial
    · split at fits
      · exact ⟨by simp [fits.1], fits.2⟩
      · exact ⟨fits.1, le_trans (Nat.mul_le_mul_left _ (by simp)) fits.2⟩

/-- A data request issued is one that its stream knows of (R103, R128). -/
theorem stagingInv_issueData (h : StagingInv s) (i : StreamId) (n : Nat) (a : Addr) (x : Transfer)
    (ok : ({ s.stream i with dataInFlight := some n } : Stream).stagingOk) (quiet : (s.stream i).dataInFlight = none)
    (reads : ∀ m, x = .read m → ({ s.stream i with dataInFlight := some n } : Stream).reads m) :
    StagingInv ((s.setStream i { s.stream i with dataInFlight := some n }).issue (.data i) a x) := by
  obtain ⟨total, queues, known⟩ := stagingInv_iff.1 h
  refine stagingInv_iff.2 ⟨?_, fun j => ?_, fun r mem j m tag transfer => ?_⟩
  · have words := allocated_setStream s i { s.stream i with dataInFlight := some n }
    have depth : ({ s.stream i with dataInFlight := some n } : Stream).depth = (s.stream i).depth := rfl
    have same : ((s.setStream i { s.stream i with dataInFlight := some n }).issue (.data i) a x).allocated
      = (s.setStream i { s.stream i with dataInFlight := some n }).allocated := rfl
    have pool : ((s.setStream i { s.stream i with dataInFlight := some n }).issue (.data i) a x).freePool = s.freePool := rfl
    omega
  · change ((s.setStream i _).stream j).stagingOk
    rw [stream_setStream]
    split
    · exact ok
    · exact queues j
  · change ((s.setStream i _).stream j).reads m
    rw [issue_port, List.mem_append, List.mem_singleton, setStream_port] at mem
    rw [stream_setStream]
    rcases mem with mem | rfl
    · have old := known r mem j m tag transfer
      split
      · next e =>
        subst e
        unfold Stream.reads at old
        split at old
        · exact old.elim
        · simp [quiet] at old
      · exact old
    · cases tag
      rw [if_pos rfl]
      exact reads m transfer

/-- The Fetch Unit asks for no more than there is room for (R103). -/
theorem stagingInv_tryRead (h : StagingInv s) (i : StreamId) : StagingInv (s.tryRead i) := by
  obtain ⟨-, queues, -⟩ := stagingInv_iff.1 h
  obtain ⟨closed, fits, drained⟩ := queues i
  unfold State.tryRead
  dsimp only
  split
  · next sh e fetched shape _ =>
    split
    · exact h
    · next policy kind =>
      split
      · next cond =>
        obtain ⟨-, may, quiet, room⟩ := cond
        simp only [Stream.stagingFits, shape, kind] at fits
        refine stagingInv_issueData h i _ _ _ ⟨closed, ?_, fun d => ?_⟩ quiet fun m e => ?_
        · simp only [Stream.stagingFits, shape, kind]
          refine ⟨fits.1, ?_⟩
          simp only [Stream.readSize, Option.getD_some]
          omega
        · simp [Stream.mayIssue, (drained d).1] at may
        · cases e
          simp [Stream.reads, shape, kind, StreamKind.lane]
      · exact h
  · exact h

/-- The Store Unit's writes take nothing of the Fetch Unit's (R127). -/
theorem stagingInv_tryWrite (h : StagingInv s) (i : StreamId) : StagingInv (s.tryWrite i) := by
  obtain ⟨-, queues, -⟩ := stagingInv_iff.1 h
  obtain ⟨closed, fits, drained⟩ := queues i
  unfold State.tryWrite
  dsimp only
  split
  · next sh e stored shape _ =>
    split
    · exact h
    · next mode kind =>
      split
      · next cond =>
        obtain ⟨-, may, quiet, -⟩ := cond
        refine stagingInv_issueData h i _ _ _ ⟨closed, ?_, fun d => ?_⟩ quiet fun m e => ?_
        · simpa [Stream.stagingFits, shape, kind] using fits
        · simp [Stream.mayIssue, (drained d).1] at may
        · cases e
      · exact h
  · exact h

/-! ## Every step -/

/-- After a reset every stream is CLOSED and the pool is whole (R60). -/
theorem stagingInv_reset {t : State} (pool : t.freePool = 512) (streams : t.streams = Vector.replicate 32 Stream.reset)
    (port : t.port = []) : StagingInv t := by
  have context (i : StreamId) : t.stream i = Stream.reset := by simp [State.stream, streams]
  refine stagingInv_iff.2 ⟨?_, fun i => context i ▸ stagingOk_reset, fun r mem => by simp [port] at mem⟩
  rw [pool, allocated_eq_sum]
  simp [context, Stream.depth, Stream.reset]

/-- A stream of the same shape and request in flight may change within its bounds. -/
theorem stagingInv_setStream (h : StagingInv s) (i : StreamId) (c : Stream) (shape : c.shape = (s.stream i).shape)
    (data : c.dataInFlight = (s.stream i).dataInFlight) (ok : (s.stream i).stagingOk → c.stagingOk) : StagingInv (s.setStream i c) :=
  stagingInv_of_stands h (stagingStands_setStream s i c shape data ok)

/-- Each change of one stream keeps the pool's sum and the queues' bounds. -/
theorem streamStable_stagingInv : StreamStable StagingInv where
  toCommandBlind := commandBlind_stagingInv
  stand k h := stagingInv_of_stands h (stagingStands_of_stand k)
  reset := stagingInv_reset
  swapAny := stagingInv_swap
  producer i v _ h := stagingInv_setStream h i _ rfl rfl id
  accept c r i sh marker _ closed pool h := stagingInv_acceptOpen h c i sh marker closed pool
  quiesce i operation opened _ h := stagingInv_setStream h i _ rfl rfl fun ok => stagingOk_quiesce ok operation opened
  fault i cause n h := stagingInv_of_stands h (stagingStands_faultStream _ i cause n)
  readDescriptor {s} i sh _ h := by
    have reading := stagingInv_setStream h i { s.stream i with descriptorInFlight := true } rfl rfl id
    refine stagingInv_of_stands reading ⟨rfl, fun r mem => ?_, fun _ => ⟨rfl, rfl, id⟩⟩
    rcases List.mem_append.1 mem with old | new
    · exact .inr old
    · exact .inl fun j => by rw [List.mem_singleton.1 new]; simp
  descriptorAnswered {s} i h :=
    stagingInv_setStream (stagingInv_of_stands h (stagingStands_of_stand (streamsStand_answered s _))) i _ rfl rfl id
  takeDescriptor {s} i words _ _ h :=
    stagingInv_setStream (stagingInv_of_stands h (stagingStands_of_stand (streamsStand_answered s _))) i _ rfl rfl id
  tryRead i h := stagingInv_tryRead h i
  tryWrite i h := stagingInv_tryWrite h i
  dataAnswered i h := stagingInv_dataAnswered h i _ rfl (stagingOk_quiet ((stagingInv_iff.1 h).2.1 i))
  takeSamples i samples q may mem tag read h := by
    obtain ⟨-, queues, reads⟩ := stagingInv_iff.1 h
    obtain ⟨ok, shape⟩ := stagingOk_takeSamples (queues i) samples (reads q mem i _ tag read) may
    exact stagingInv_dataAnswered h i _ shape ok
  takeWrite {s} i n h := by
    obtain ⟨ok, shape, data⟩ := stagingOk_takeWrite ((stagingInv_iff.1 h).2.1 i) n
    exact stagingInv_setStream h i _ shape data fun _ => ok
  retireFinished i h := stagingInv_of_stands h (stagingStands_retireFinished _ i)
  drain i done h := by
    obtain ⟨quiescing, -, -, quiet⟩ := (drainDone_iff _).1 done
    exact stagingInv_setStream h i _ rfl rfl fun ⟨closed, fits, _⟩ => ⟨closed, fits, fun _ => ⟨quiescing, quiet⟩⟩
  close i finished h := stagingInv_close h i finished
  restart i named n finished _ h := by
    obtain ⟨quiescing, drained, -⟩ := (quiesceOver_iff _).1 finished
    exact stagingInv_setStream h i _ rfl rfl fun ok => stagingOk_restartAt ok quiescing (ok.2.2 drained).2 named n
  serve i h := stagingInv_of_stands h (stagingStands_serveRetirement _ i)

/-- Settles O57: every change of `Acts` keeps the pool's sum and the queues' bounds. -/
theorem stagingKeepsItsBounds : Obligations.StagingKeepsItsBounds :=
  keptByEveryStep_of_acts (fun _ _ h => h) streamStable_stagingInv.acts

end
end Sys2Proof.Machine

/-!
The block rings (R88, R90, R91): what one stream's list owes its indices, what each change of a stream does to them, and the statement
that every step keeps the indices in order.
-/
namespace Sys2Proof.Machine

/-- The ring indices of the entries in the list, head first. -/
def Stream.listed (c : Stream) : List Nat := c.list.map (·.ringIndex)

/-- What `StreamsInv` asks of one stream by itself, of its list only the ring indices. -/
def Stream.ringOk (c : Stream) : Prop :=
  (c.state = .closed → c.descriptorInFlight = false)
  ∧ (c.drained = true →
      c.state = .quiescing ∧ c.descriptorInFlight = false ∧ ∀ k, c.cursor = some k → k.ringIndex ∈ c.listed)
  ∧ ∀ sh : Shape, c.shape = some sh →
      sh.legal ∧ c.producer < sh.ringSize ∧ c.retire < sh.ringSize
      ∧ c.fetch = (c.retire + c.listed.length) % sh.ringSize
      ∧ c.listed.length + flag c.descriptorInFlight ≤ 2
      ∧ (∀ k x : Nat, c.listed[k]? = some x → x = (c.retire + k) % sh.ringSize)
      ∧ ∀ n, c.pendingOperation = some (.restart n) → n < sh.ringSize

section
variable {s t : State} {c : Stream}

theorem streamsInv_iff :
    StreamsInv s ↔ (∀ i : StreamId, s.inFlight (.descriptor i) = true → (s.stream i).descriptorInFlight = true)
      ∧ ∀ i : StreamId, (s.stream i).ringOk := by
  have named (c : Stream) (k : Cursor) : (∃ e ∈ c.list, e.ringIndex = k.ringIndex) ↔ k.ringIndex ∈ c.listed := by
    simp [Stream.listed]
  have placed (c : Stream) (size : Nat) :
      (∀ (k : Nat) (e : Entry), c.list[k]? = some e → e.ringIndex = (c.retire + k) % size)
        ↔ ∀ k x : Nat, c.listed[k]? = some x → x = (c.retire + k) % size := by
    constructor
    · intro h k x get
      rw [Stream.listed, List.getElem?_map, Option.map_eq_some_iff] at get
      obtain ⟨e, mem, rfl⟩ := get
      exact h k e mem
    · intro h k e get
      exact h k e.ringIndex (by rw [Stream.listed, List.getElem?_map, get]; rfl)
  have length (c : Stream) : c.list.length = c.listed.length := by simp [Stream.listed]
  simp only [StreamsInv, named, placed, length]
  constructor
  · rintro ⟨port, closed, drained, shape⟩
    exact ⟨port, fun i => ⟨closed i, drained i, shape i⟩⟩
  · rintro ⟨port, ok⟩
    exact ⟨port, fun i => (ok i).1, fun i => (ok i).2.1, fun i => (ok i).2.2⟩

/-! ## The changes of the state -/

/-- One stream changes within its order, and knows of its descriptor read when the Port holds one. -/
theorem streamsInv_setStream (h : StreamsInv s) (i : StreamId) (c : Stream)
    (known : s.inFlight (.descriptor i) = true → c.descriptorInFlight = true) (ok : c.ringOk) : StreamsInv (s.setStream i c) := by
  obtain ⟨port, rings⟩ := streamsInv_iff.1 h
  refine streamsInv_iff.2 ⟨fun j f => ?_, fun j => ?_⟩
  all_goals rw [stream_setStream]; split
  · next e => subst e; exact known f
  · exact port j f
  · exact ok
  · exact rings j

/-- Streams that stand, or change within their order with their descriptor read as it was. -/
theorem streamsInv_of_streams (h : StreamsInv s) (port : ∀ i, t.inFlight (.descriptor i) = true → s.inFlight (.descriptor i) = true)
    (streams : ∀ i, (t.stream i).descriptorInFlight = (s.stream i).descriptorInFlight ∧ ((s.stream i).ringOk → (t.stream i).ringOk)) :
    StreamsInv t := by
  obtain ⟨known, rings⟩ := streamsInv_iff.1 h
  exact streamsInv_iff.2 ⟨fun i f => (streams i).1.trans (known i (port i f)), fun i => (streams i).2 (rings i)⟩

theorem streamsInv_of_stand (h : StreamsInv s) (k : StreamsStand s t) : StreamsInv t := by
  obtain ⟨streams, -, port⟩ := k
  refine streamsInv_of_streams h (fun i f => ?_) fun i => by rw [stream_congr streams i]; exact ⟨rfl, id⟩
  obtain ⟨r, mem, tag⟩ := (inFlight_iff _ _).1 f
  rcases port r mem with old | ⟨other, -⟩
  · exact (inFlight_iff _ _).2 ⟨r, old, tag⟩
  · exact absurd tag (other i)

/-- A state in which the Port, like the list of requests before, holds the same requests. -/
theorem inFlight_of_port (port : t.port = s.port) (tag : Requester) : t.inFlight tag = s.inFlight tag := by
  rw [State.inFlight, State.request, port]; rfl

/-! ## Retirements -/

/-- What every head that leaves keeps of a stream, retirements keep (R93, R94). -/
theorem retireHeads_keeps {K : Stream → Prop} (pop : ∀ c : Stream, c.list ≠ [] → K c → K c.popHead) (n : Nat) (i : StreamId) :
    ∀ s : State, K (s.stream i) → K ((retireHeads n i s).stream i) := by
  induction n with
  | zero => exact fun s h => h
  | succ n ih =>
    intro s h
    unfold retireHeads
    split
    · exact h
    · next e rest list =>
      have popped := pop _ (by simp [list]) h
      split
      · exact h
      · split
        · split
          · exact ih _ (by rw [State.retireReporting, stream_setStream_self]; exact popped)
          · exact h
        · exact ih _ (by rw [State.retireSilently, stream_setStream_self]; exact popped)

/-- What every head that leaves keeps of a stream, a served retirement keeps (R96). -/
theorem serveRetirement_keeps {K : Stream → Prop} (pop : ∀ c : Stream, c.list ≠ [] → K c → K c.popHead) (s : State) (i : StreamId)
    (h : K (s.stream i)) : K ((s.serveRetirement i).stream i) := by
  unfold State.serveRetirement
  split
  · exact h
  · next e rest list =>
    have popped := pop _ (by simp [list]) h
    split
    · exact h
    · next status _ =>
      have first : (s.retireReporting i e status).stream i = (s.stream i).popHead := stream_setStream_self _ _ _
      dsimp only
      split
      · rwa [first]
      · split
        · rwa [first]
        · split
          · rwa [first]
          · rw [State.retireSilently, stream_setStream_self, first]
            exact pop _ (by simp [Stream.popHead, list]) popped

/-- A served retirement of one stream leaves every other as it is. -/
theorem stream_serveRetirement_of_ne (s : State) {i j : StreamId} (h : j ≠ i) : (s.serveRetirement i).stream j = s.stream j := by
  have reporting (e : Entry) (status : BlockStatus) : (s.retireReporting i e status).stream j = s.stream j :=
    stream_setStream_of_ne _ _ h
  unfold State.serveRetirement
  split
  · rfl
  · split
    · rfl
    · dsimp only
      split
      · exact reporting _ _
      · split
        · exact reporting _ _
        · split
          · exact reporting _ _
          · rw [State.retireSilently, stream_setStream_of_ne _ _ h, reporting]

/-- The head that leaves takes the first ring index with it, and the retire index moves on to the next (R94). -/
theorem ringOk_popHead (nonempty : c.list ≠ []) (h : c.ringOk) : c.popHead.ringOk := by
  obtain ⟨e, rest, list⟩ := List.exists_cons_of_ne_nil nonempty
  have listed : c.listed = e.ringIndex :: c.popHead.listed := by simp [Stream.listed, Stream.popHead, list]
  obtain ⟨closed, drained, ring⟩ := h
  refine ⟨closed, fun d => ?_, fun sh shape => ?_⟩
  · obtain ⟨quiescing, quiet, -⟩ := drained d
    refine ⟨quiescing, quiet, fun k cursor => ?_⟩
    obtain ⟨x, mem, index⟩ := popHead_cursor (c := c) d cursor
    exact List.mem_map.2 ⟨x, mem, index⟩
  · have size : c.ringSize = sh.ringSize := ringSize_of_shape shape
    obtain ⟨legal, producer, retire, fetch, room, placed, restart⟩ := ring sh shape
    rw [listed, List.length_cons] at fetch room
    have moved : c.popHead.retire = (c.retire + 1) % sh.ringSize := by rw [Stream.popHead, size]
    refine ⟨legal, producer, moved ▸ Nat.mod_lt _ (Nat.zero_lt_of_lt retire), ?_, ?_, fun k x get => ?_, restart⟩
    · rw [moved, Nat.mod_add_mod, show c.retire + 1 + c.popHead.listed.length = c.retire + (c.popHead.listed.length + 1) by omega]
      exact fetch
    · exact le_trans (by simp only [Stream.popHead]; omega) room
    · rw [moved, Nat.mod_add_mod, show c.retire + 1 + k = c.retire + (k + 1) by omega]
      exact placed (k + 1) x (by rw [listed]; exact get)

theorem descriptorInFlight_popHead (b : Bool) (c : Stream) (_ : c.list ≠ []) (h : c.descriptorInFlight = b) :
    c.popHead.descriptorInFlight = b := h

theorem streamsInv_retireFinished (h : StreamsInv s) (i : StreamId) : StreamsInv (s.retireFinished i) := by
  have frame := retireFinished_frame s i
  refine streamsInv_of_streams h (fun j f => by rwa [inFlight_of_port (by rw [frame])] at f) fun j => ?_
  by_cases other : j = i
  · subst other
    exact ⟨retireHeads_keeps (descriptorInFlight_popHead _) 2 j s rfl, retireHeads_keeps (fun c => ringOk_popHead) 2 j s⟩
  · rw [State.retireFinished, stream_retireHeads_of_ne 2 other]
    exact ⟨rfl, id⟩

theorem streamsInv_serveRetirement (h : StreamsInv s) (i : StreamId) : StreamsInv (s.serveRetirement i) := by
  have frame := serveRetirement_frame s i
  refine streamsInv_of_streams h (fun j f => by rwa [inFlight_of_port (by rw [frame])] at f) fun j => ?_
  by_cases other : j = i
  · subst other
    exact ⟨serveRetirement_keeps (descriptorInFlight_popHead _) s j rfl, serveRetirement_keeps (fun c => ringOk_popHead) s j⟩
  · rw [stream_serveRetirement_of_ne s other]
    exact ⟨rfl, id⟩

/-! ## The link's work -/

/-- A swap moves a stream between OPEN and LIVE and leaves its ring (R39). -/
theorem ringOk_moved (h : c.ringOk) (named : Bool) : (c.moved named).ringOk := by
  obtain ⟨closed, drained, ring⟩ := h
  have undrained (state : c.state ≠ .quiescing) : c.drained ≠ true := fun d => state (drained d).1
  unfold Stream.moved
  split
  · exact ⟨closed, drained, ring⟩
  · next state =>
    split
    · exact ⟨fun e => by simp at e, fun d => absurd d (undrained (by simp [state])), ring⟩
    · exact ⟨closed, drained, ring⟩
  · next state =>
    split
    · exact ⟨closed, drained, ring⟩
    · exact ⟨fun e => by simp at e, fun d => absurd d (undrained (by simp [state])), ring⟩
  · exact ⟨closed, drained, ring⟩
  · exact ⟨closed, drained, ring⟩

theorem descriptorInFlight_moved (c : Stream) (named : Bool) : (c.moved named).descriptorInFlight = c.descriptorInFlight := by
  unfold Stream.moved
  split <;> try rfl
  all_goals split <;> rfl

theorem streamsInv_swap (h : StreamsInv s) : StreamsInv s.swap := by
  refine streamsInv_of_streams h (fun i f => by rwa [inFlight_of_port (swap_port s)] at f) fun i => ?_
  rw [stream_swap, moveAtSwap_eq_moved]
  exact ⟨descriptorInFlight_moved _ _, fun ok => ringOk_moved ok _⟩

/-- Samples sent leave the ring indices of the list (R115). -/
theorem ringIndices_assignSample (f : FrameNo) (x : Sample) (list : List Entry) :
    (assignSample f x list).map (·.ringIndex) = list.map (·.ringIndex) := by
  induction list with
  | nil => rfl
  | cons e rest ih =>
    unfold assignSample
    split
    · rfl
    · rw [List.map_cons, List.map_cons, ih]

theorem ringIndices_assignSamples (f : FrameNo) (turn : List Sample) :
    ∀ list : List Entry, (assignSamples f turn list).map (·.ringIndex) = list.map (·.ringIndex) := by
  induction turn with
  | nil => exact fun list => rfl
  | cons x rest ih =>
    intro list
    rw [assignSamples, List.foldl_cons]
    exact (ih _).trans (ringIndices_assignSample f x list)

/-- A change of a stream that leaves its ring as it was. -/
theorem ringOk_congr {d : Stream} (h : c.ringOk) (state : d.state = c.state) (flight : d.descriptorInFlight = c.descriptorInFlight)
    (drained : d.drained = c.drained) (cursor : d.cursor = c.cursor) (listed : d.listed = c.listed) (shape : d.shape = c.shape)
    (producer : d.producer = c.producer) (retire : d.retire = c.retire) (fetch : d.fetch = c.fetch)
    (operation : d.pendingOperation = c.pendingOperation) : d.ringOk := by
  unfold Stream.ringOk at h ⊢
  rwa [state, flight, drained, cursor, listed, shape, producer, retire, fetch, operation]

theorem ringOk_outStreamTurn (f : FrameNo) (s : State) (i j : StreamId) (h : (s.stream j).ringOk) :
    ((outStreamTurn f s i).stream j).ringOk := by
  by_cases other : j = i
  case neg => rwa [stream_outStreamTurn_of_ne f s other]
  subst other
  unfold outStreamTurn
  dsimp only
  split
  · exact h
  · split
    · split
      · unfold State.goodTurn
        dsimp only
        refine retireHeads_keeps (K := Stream.ringOk) (fun c => ringOk_popHead) 2 j _ ?_
        rw [stream_setStream_self]
        exact ringOk_congr h rfl rfl rfl rfl (ringIndices_assignSamples f _ _) rfl rfl rfl rfl rfl
      · unfold State.underrunTurn
        dsimp only
        split
        · rw [stream_setStream_self]
          exact h
        · rw [present_stream, stream_setStream_self]
          exact h
    · exact h

theorem commandBlind_streamsInv : CommandBlind StreamsInv where
  present s e h := streamsInv_of_stand h (streamsStand_of_eq (by simp) (by simp) (by simp))
  complete _ _ _ _ h := streamsInv_of_stand h (streamsStand_of_eq rfl rfl rfl)
  apart k h := streamsInv_of_stand h (streamsStand_of_eq k.streams k.freePool k.port)
  swap _ _ h := streamsInv_swap h
  outTurn f s i h := by
    have frame := outStreamTurn_frame s f i
    refine streamsInv_of_streams h (fun j g => by rwa [inFlight_of_port (by rw [frame])] at g) fun j => ?_
    exact ⟨by rw [stream_outStreamTurn], ringOk_outStreamTurn f s i j⟩
  inTurn b f r words s i h := by
    have frame := inStreamTurn_frame s b f r words i
    refine streamsInv_of_streams h (fun j g => by rwa [inFlight_of_port (by rw [frame])] at g) fun j => ?_
    rw [stream_inStreamTurn]
    exact ⟨rfl, fun ok => ringOk_congr ok rfl rfl rfl rfl rfl rfl rfl rfl rfl rfl⟩

/-! ## The changes of one stream -/

theorem ringOk_reset : Stream.reset.ringOk :=
  ⟨fun _ => rfl, fun d => by simp [Stream.reset] at d, fun _ shape => by simp [Stream.reset] at shape⟩

/-- After a reset every stream is CLOSED and no request is in flight. -/
theorem streamsInv_reset {t : State} (streams : t.streams = Vector.replicate 32 Stream.reset) (port : t.port = []) : StreamsInv t := by
  have context (i : StreamId) : t.stream i = Stream.reset := by simp [State.stream, streams]
  refine streamsInv_iff.2 ⟨fun i f => ?_, fun i => context i ▸ ringOk_reset⟩
  obtain ⟨r, mem, -⟩ := (inFlight_iff _ _).1 f
  simp [port] at mem

/-- The shape of a record passes every check of R44. -/
theorem legal_of_shapeFields {r : CommandRecord} {sh : Shape} (h : shapeFields r = some sh) : sh.legal := by
  unfold shapeFields at h
  dsimp only at h
  split at h
  · cases h
  · split at h
    · next valid => cases h; exact valid
    · cases h

/-- Every ring size of R44 is above 0. -/
theorem ringSize_pos {sh : Shape} (h : sh.legal) : 0 < sh.ringSize := by
  obtain ⟨-, -, -, -, -, -, -, size⟩ := h
  have positive : ∀ n ∈ ringSizes, 0 < n := by decide
  exact positive _ size

/-- A newly opened stream has an empty ring (R45). -/
theorem ringOk_openAs {sh : Shape} (legal : sh.legal) : (Stream.openAs sh).ringOk := by
  have size := ringSize_pos legal
  refine ⟨fun _ => rfl, fun d => by simp [Stream.openAs, Stream.reset] at d, fun x shape => ?_⟩
  cases shape
  exact ⟨legal, size, size, (Nat.zero_mod _).symm, Nat.zero_le _, fun k x get => by simp [Stream.openAs, Stream.reset, Stream.listed] at get,
    fun n e => by simp [Stream.openAs, Stream.reset] at e⟩

/-- An entry to QUIESCING keeps the ring, and a RESTART's index is inside it (R51, R52). -/
theorem ringOk_quiesce (h : c.ringOk) (operation : PendingOperation) (inside : ∀ n, operation = .restart n → n < c.ringSize) :
    (c.quiesce operation).ringOk := by
  obtain ⟨-, -, ring⟩ := h
  refine ⟨fun e => by simp [Stream.quiesce] at e, fun d => by simp [Stream.quiesce] at d, fun sh shape => ?_⟩
  obtain ⟨legal, producer, retire, fetch, room, placed, -⟩ := ring sh shape
  refine ⟨legal, producer, retire, fetch, room, placed, fun n e => ?_⟩
  rw [← ringSize_of_shape (c := c) shape]
  exact inside n (by simpa [Stream.quiesce] using e)

/-- A stream fault leaves the ring as it stands (R46, R48, R49). -/
theorem streamsInv_faultStream (h : StreamsInv s) (i : StreamId) (cause : StreamFault) (n : Nat) :
    StreamsInv (s.faultStream i cause n) := by
  obtain ⟨known, rings⟩ := streamsInv_iff.1 h
  obtain ⟨closed, drained, ring⟩ := rings i
  have stable := commandBlind_streamsInv
  have faulted (calm : (s.stream i).state ≠ .quiescing) :
      StreamsInv (s.setStream i { s.stream i with state := .faulted, faultCause := some cause }) :=
    streamsInv_setStream h i _ (known i) ⟨fun e => by simp at e, fun d => absurd (drained d).1 calm, ring⟩
  unfold State.faultStream
  dsimp only
  split
  · exact h
  · next state => exact stable.present _ _ (faulted (by simp [state]))
  · next state => exact stable.present _ _ (faulted (by simp [state]))
  · exact h
  · split
    · exact stable.present _ _ (streamsInv_setStream h i _ (known i) ⟨closed, drained, ring⟩)
    · exact h

/-- A good descriptor joins at the fetch index, in the room that its read had taken (R91). -/
theorem ringOk_takeDescriptor (h : c.ringOk) (words : Vector Word 4) (may : c.mayIssue = true) (reading : c.descriptorInFlight = true) :
    (({ c with descriptorInFlight := false } : Stream).takeDescriptor words).ringOk := by
  obtain ⟨-, drained, ring⟩ := h
  have undrained : c.drained ≠ true := fun d => by simp [Stream.mayIssue, (drained d).1] at may
  refine ⟨fun _ => rfl, fun d => absurd d undrained, fun sh shape => ?_⟩
  obtain ⟨legal, producer, retire, fetch, room, placed, restart⟩ := ring sh shape
  have size : c.ringSize = sh.ringSize := ringSize_of_shape shape
  have listed : (({ c with descriptorInFlight := false } : Stream).takeDescriptor words).listed = c.listed ++ [c.fetch] := by
    simp [Stream.takeDescriptor, Stream.listed, descriptorEntry]
  have moved : (({ c with descriptorInFlight := false } : Stream).takeDescriptor words).fetch = (c.fetch + 1) % sh.ringSize := by
    rw [← size]; rfl
  rw [listed, moved]
  refine ⟨legal, producer, retire, ?_, ?_, fun k x get => ?_, restart⟩
  · rw [fetch, Nat.mod_add_mod, List.length_append, List.length_singleton]
    rfl
  · simp only [reading, flag, if_true] at room
    simpa [Stream.takeDescriptor, flag] using room
  · rw [List.getElem?_append] at get
    split at get
    · exact placed k x get
    · next beyond =>
      rw [List.getElem?_singleton] at get
      split at get
      · cases get
        rw [fetch, show c.listed.length = k by omega]
        rfl
      · cases get

/-- Samples of a read leave the ring: the stream is not drained, so its cursor may move freely (R104). -/
theorem ringOk_takeSamples (h : c.ringOk) (may : c.mayIssue = true) (samples : List Word) :
    (({ c with dataInFlight := none } : Stream).takeSamples samples).ringOk := by
  obtain ⟨closed, drained, ring⟩ := h
  have undrained : c.drained ≠ true := fun d => by simp [Stream.mayIssue, (drained d).1] at may
  unfold Stream.takeSamples
  split
  · exact ⟨closed, drained, ring⟩
  · exact ⟨closed, fun d => absurd d undrained, ring⟩

/-- The cursor behind an entry names an entry of the list (R104, R129). -/
theorem cursorBehind_mem {index : Nat} {k : Cursor} : ∀ {list : List Entry}, cursorBehind index list = some k →
    k.ringIndex ∈ list.map (·.ringIndex)
  | [], h => by cases h
  | e :: rest, h => by
    unfold cursorBehind at h
    split at h
    · cases rest with
      | nil => cases h
      | cons n rest => cases h; simp
    · exact List.mem_cons_of_mem _ (cursorBehind_mem h)

/-- The entry that the cursor names is in the list. -/
theorem cursorEntry_mem {e : Entry} {moved : Nat} (h : c.cursorEntry = some (e, moved)) : e ∈ c.list := by
  unfold Stream.cursorEntry at h
  split at h
  · cases h
  · rw [Option.map_eq_some_iff] at h
    obtain ⟨x, found, same⟩ := h
    cases same
    exact List.mem_of_find?_eq_some found

/-- A cursor that moves on from an entry of the list names one of them, or is absent (R104, R129). -/
theorem cursorAfter_mem {e : Entry} (mem : e ∈ c.list) (moved n : Nat) {k : Cursor} (h : c.cursorAfter e moved n = some k) :
    k.ringIndex ∈ c.listed := by
  unfold Stream.cursorAfter at h
  split at h
  · exact cursorBehind_mem h
  · cases h
    exact List.mem_map.2 ⟨e, mem, rfl⟩

/-- Elements stored leave the ring indices of the list (R129). -/
theorem listed_takeWrite (c : Stream) (n : Nat) : (c.takeWrite n).listed = c.listed := by
  have kept (e : Entry) (stored : List Element) (may : Bool) : ((e.store stored).finishWhenFull may).ringIndex = e.ringIndex := by
    unfold Entry.finishWhenFull
    split <;> rfl
  unfold Stream.takeWrite
  split
  · rfl
  · simp only [Stream.listed, List.map_map]
    refine List.map_congr_left fun x _ => ?_
    simp only [Function.comp_apply]
    split
    · exact kept _ _ _
    · rfl

/-- A write answered leaves the ring, and the cursor on an entry of the list, or absent (R129, R131). -/
theorem ringOk_takeWrite (h : c.ringOk) (n : Nat) : (c.takeWrite n).ringOk := by
  have listed := listed_takeWrite c n
  obtain ⟨closed, drained, ring⟩ := h
  unfold Stream.takeWrite at listed ⊢
  split at listed
  · exact ⟨closed, drained, ring⟩
  · next e stored entry =>
    unfold Stream.ringOk
    rw [listed]
    refine ⟨closed, fun d => ?_, ring⟩
    obtain ⟨quiescing, quiet, -⟩ := drained d
    exact ⟨quiescing, quiet, fun k cursor => cursorAfter_mem (cursorEntry_mem entry) _ _ cursor⟩

theorem descriptorInFlight_takeWrite (c : Stream) (n : Nat) : (c.takeWrite n).descriptorInFlight = c.descriptorInFlight := by
  unfold Stream.takeWrite
  split <;> rfl

/-- The end of a drain finishes the entries where they stand (R54). -/
theorem ringIndices_finishDrained (list : List Entry) : (finishDrained list).map (·.ringIndex) = list.map (·.ringIndex) := by
  have kept (e : Entry) (status : BlockStatus) : (e.finishAs status).ringIndex = e.ringIndex := by
    unfold Entry.finishAs
    split <;> rfl
  cases list with
  | nil => rfl
  | cons e rest => simp [finishDrained, kept]

/-- A drained stream keeps its ring, with the cursor on an entry of the list, or absent (R54, R101, R127). -/
theorem ringOk_drain (h : c.ringOk) (done : c.drainDone = true) : c.drain.ringOk := by
  obtain ⟨quiescing, -, quiet, -⟩ := (drainDone_iff c).1 done
  have listed : c.drain.listed = c.listed := ringIndices_finishDrained c.list
  obtain ⟨closed, -, ring⟩ := h
  unfold Stream.ringOk
  rw [listed]
  refine ⟨closed, fun _ => ⟨quiescing, quiet, fun k cursor => ?_⟩, ring⟩
  obtain ⟨old, -, kept⟩ := Option.bind_eq_some_iff.1 cursor
  obtain ⟨e, mem, index⟩ := cursorIn_names kept
  exact List.mem_map.2 ⟨e, mem, index⟩

/-- The end of a RESTART empties the ring at its index (R56). -/
theorem ringOk_restartAt (h : c.ringOk) (drained : c.drained = true) (named : Bool) {n : Nat}
    (operation : c.pendingOperation = some (.restart n)) : (c.restartAt named n).ringOk := by
  obtain ⟨-, drain, ring⟩ := h
  obtain ⟨-, quiet, -⟩ := drain drained
  refine ⟨fun _ => quiet, fun d => by simp [Stream.restartAt] at d, fun sh shape => ?_⟩
  obtain ⟨legal, -, -, -, -, -, restart⟩ := ring sh shape
  have inside := restart n operation
  refine ⟨legal, inside, inside, (Nat.mod_eq_of_lt inside).symm, ?_, fun k x get => ?_, fun m e => ?_⟩
  · simp [Stream.listed, Stream.restartAt, quiet, flag]
  · simp [Stream.listed, Stream.restartAt] at get
  · simp [Stream.restartAt] at e

/-! ## Every step -/

/-- No stream that knows of no descriptor read has one in the Port. -/
theorem descriptor_not_inFlight (h : StreamsInv s) {i : StreamId} (quiet : (s.stream i).descriptorInFlight = false) :
    s.inFlight (.descriptor i) = false := by
  obtain ⟨known, -⟩ := streamsInv_iff.1 h
  rw [Bool.eq_false_iff]
  intro f
  simp [known i f] at quiet

/-- A data request issued touches no ring. -/
theorem streamsInv_issueData (h : StreamsInv s) (i : StreamId) (n : Nat) (a : Addr) (x : Transfer) :
    StreamsInv ((s.setStream i { s.stream i with dataInFlight := some n }).issue (.data i) a x) := by
  refine streamsInv_of_streams h (fun j f => ?_) fun j => ?_
  · rw [inFlight_issue] at f
    simpa [inFlight_of_port (setStream_port s i _)] using f
  · change ((s.setStream i _).stream j).descriptorInFlight = _ ∧ (_ → ((s.setStream i _).stream j).ringOk)
    rw [stream_setStream]
    split
    · next e => subst e; exact ⟨rfl, id⟩
    · exact ⟨rfl, id⟩

theorem streamsInv_tryRead (h : StreamsInv s) (i : StreamId) : StreamsInv (s.tryRead i) := by
  unfold State.tryRead
  dsimp only
  split
  · split
    · exact h
    · split
      · exact streamsInv_issueData h i _ _ _
      · exact h
  · exact h

theorem streamsInv_tryWrite (h : StreamsInv s) (i : StreamId) : StreamsInv (s.tryWrite i) := by
  unfold State.tryWrite
  dsimp only
  split
  · split
    · exact h
    · split
      · exact streamsInv_issueData h i _ _ _
      · exact h
  · exact h

/-- A descriptor read is issued where the list has room for it (R90). -/
theorem streamsInv_readDescriptor (h : StreamsInv s) (i : StreamId) (sh : Shape) (wants : (s.stream i).wantsDescriptor = true) :
    StreamsInv (s.readDescriptor i sh) := by
  obtain ⟨known, rings⟩ := streamsInv_iff.1 h
  obtain ⟨closed, drained, ring⟩ := rings i
  simp only [Stream.wantsDescriptor, Bool.and_eq_true, decide_eq_true_eq, Bool.not_eq_true'] at wants
  obtain ⟨⟨⟨may, room⟩, -⟩, -⟩ := wants
  have ok : ({ s.stream i with descriptorInFlight := true } : Stream).ringOk := by
    refine ⟨fun e => ?_, fun d => ?_, fun x shape => ?_⟩
    · rw [Stream.mayIssue, decide_eq_true_eq] at may
      simp only at e
      simp [e] at may
    · simp [Stream.mayIssue, (drained d).1] at may
    · obtain ⟨legal, producer, retire, fetch, -, placed, restart⟩ := ring x shape
      refine ⟨legal, producer, retire, fetch, ?_, placed, restart⟩
      simp only [Stream.listed, List.length_map, flag, if_true]
      omega
  have reading := streamsInv_setStream h i _ (fun _ => rfl) ok
  obtain ⟨known, rings⟩ := streamsInv_iff.1 reading
  refine streamsInv_iff.2 ⟨fun j f => ?_, rings⟩
  rw [State.readDescriptor, inFlight_issue, Bool.or_eq_true, decide_eq_true_eq] at f
  rcases f with old | new
  · exact known j old
  · cases new
    change ((s.setStream i _).stream i).descriptorInFlight = true
    rw [stream_setStream_self]

/-- A stream whose descriptor read has its answer knows of none. -/
theorem streamsInv_setAnswered (h : StreamsInv s) (i : StreamId) (c : Stream) (ok : c.ringOk) :
    StreamsInv ((s.answered (.descriptor i)).setStream i c) :=
  streamsInv_setStream (streamsInv_of_stand h (streamsStand_answered s _)) i c (fun f => by simp [not_inFlight_answered] at f) ok

/-- A data request of the stream has its answer. -/
theorem streamsInv_setDataAnswered (h : StreamsInv s) (i : StreamId) (c : Stream)
    (flight : c.descriptorInFlight = (s.stream i).descriptorInFlight) (ok : c.ringOk) :
    StreamsInv ((s.answered (.data i)).setStream i c) := by
  obtain ⟨known, -⟩ := streamsInv_iff.1 h
  refine streamsInv_setStream (streamsInv_of_stand h (streamsStand_answered s _)) i c (fun f => ?_) ok
  rw [inFlight_answered_of_ne s (by simp)] at f
  exact flight.trans (known i f)

/-- A list without a descriptor read has room for the answer to none. -/
theorem ringOk_quiet (h : c.ringOk) : ({ c with descriptorInFlight := false } : Stream).ringOk := by
  obtain ⟨-, drained, ring⟩ := h
  refine ⟨fun _ => rfl, fun d => ?_, fun sh shape => ?_⟩
  · obtain ⟨quiescing, -, cursor⟩ := drained d
    exact ⟨quiescing, rfl, cursor⟩
  · obtain ⟨legal, producer, retire, fetch, room, placed, restart⟩ := ring sh shape
    exact ⟨legal, producer, retire, fetch, le_trans (Nat.le_add_right _ _) room, placed, restart⟩

/-- An accepted OPEN STREAM sets a legal shape with an empty ring (R44, R45). -/
theorem streamsInv_acceptOpen (h : StreamsInv s) (c : Command) {r : CommandRecord} (i : StreamId) {sh : Shape}
    (marker : Option (MarkerId × Nat)) (fields : shapeFields r = some sh) (closed : (s.stream i).state = .closed) :
    StreamsInv (s.acceptOpen c i sh marker) := by
  obtain ⟨-, rings⟩ := streamsInv_iff.1 h
  have quiet := descriptor_not_inFlight h ((rings i).1 closed)
  have opened := streamsInv_setStream (s := { s with freePool := s.freePool - sh.depth }) h i (Stream.openAs sh)
    (fun f => absurd (quiet.symm.trans f) (by simp)) (ringOk_openAs (legal_of_shapeFields fields))
  cases marker with
  | none => exact streamsInv_of_stand opened (streamsStand_of_eq rfl rfl rfl)
  | some m => exact streamsInv_of_stand opened (streamsStand_of_eq rfl rfl rfl)

/-- Each change of one stream keeps the rings in order. -/
theorem streamStable_streamsInv : StreamStable StreamsInv where
  toCommandBlind := commandBlind_streamsInv
  stand k h := streamsInv_of_stand h k
  reset _ streams port := streamsInv_reset streams port
  swapAny h := streamsInv_swap h
  producer {s} i v inside h := by
    obtain ⟨known, rings⟩ := streamsInv_iff.1 h
    obtain ⟨closed, drained, ring⟩ := rings i
    refine streamsInv_setStream h i _ (known i) ⟨closed, drained, fun sh shape => ?_⟩
    obtain ⟨legal, -, rest⟩ := ring sh shape
    exact ⟨legal, (ringSize_of_shape (c := s.stream i) shape) ▸ inside, rest⟩
  accept c r i sh marker fields closed _ h := streamsInv_acceptOpen h c i marker fields closed
  quiesce i operation _ inside h := by
    obtain ⟨known, rings⟩ := streamsInv_iff.1 h
    exact streamsInv_setStream h i _ (known i) (ringOk_quiesce (rings i) operation inside)
  fault i cause n h := streamsInv_faultStream h i cause n
  readDescriptor i sh wants h := streamsInv_readDescriptor h i sh wants
  descriptorAnswered i h := streamsInv_setAnswered h i _ (ringOk_quiet ((streamsInv_iff.1 h).2 i))
  takeDescriptor i words may asked h := by
    obtain ⟨known, rings⟩ := streamsInv_iff.1 h
    exact streamsInv_setAnswered h i _ (ringOk_takeDescriptor (rings i) words may (known i asked))
  tryRead i h := streamsInv_tryRead h i
  tryWrite i h := streamsInv_tryWrite h i
  dataAnswered i h := streamsInv_setDataAnswered h i _ rfl ((streamsInv_iff.1 h).2 i)
  takeSamples {s} i samples q may _ _ _ h := by
    refine streamsInv_setDataAnswered h i _ ?_ (ringOk_takeSamples ((streamsInv_iff.1 h).2 i) may samples)
    unfold Stream.takeSamples
    split <;> rfl
  takeWrite i n h := by
    obtain ⟨known, rings⟩ := streamsInv_iff.1 h
    exact streamsInv_setStream h i _ (fun f => (descriptorInFlight_takeWrite _ n).trans (known i f)) (ringOk_takeWrite (rings i) n)
  retireFinished i h := streamsInv_retireFinished h i
  drain i done h := by
    obtain ⟨known, rings⟩ := streamsInv_iff.1 h
    exact streamsInv_setStream h i _ (known i) (ringOk_drain (rings i) done)
  close {s} i finished h := by
    obtain ⟨-, rings⟩ := streamsInv_iff.1 h
    obtain ⟨-, drained, -⟩ := (quiesceOver_iff _).1 finished
    have quiet := descriptor_not_inFlight h ((rings i).2.1 drained).2.1
    exact streamsInv_setStream (s := { s with freePool := s.freePool + (s.stream i).depth }) h i _
      (fun f => absurd (quiet.symm.trans f) (by simp)) ringOk_reset
  restart i named n finished operation h := by
    obtain ⟨known, rings⟩ := streamsInv_iff.1 h
    obtain ⟨-, drained, -⟩ := (quiesceOver_iff _).1 finished
    exact streamsInv_setStream h i _ (known i) (ringOk_restartAt (rings i) drained named operation)
  serve i h := streamsInv_serveRetirement h i

/-- Settles O59: every change of `Acts` keeps every ring in order. -/
theorem ringIndicesStayInOrder : Obligations.RingIndicesStayInOrder :=
  keptByEveryStep_of_acts (fun _ _ h => h) streamStable_streamsInv.acts

end
end Sys2Proof.Machine

/-!
The command ring's look (R153): what an owner and the look leave of the queue, the Host Window and the processor, and that in READY no
record stays posted beside an IDLE processor.
-/
namespace Sys2Proof.Machine

/-- From `s` to `t` the queue and the Host Window stand, and of the processor all but its state. -/
def SeatStands (s t : State) : Prop :=
  t.pending = s.pending ∧ t.host = s.host ∧ t.proc = { s.proc with state := t.proc.state }

/-- In READY the command ring is there (R183). -/
def State.ringed (s : State) : Prop := s.host.engine = .ready → s.proc.ring.isSome = true

section
variable {s t u : State}

theorem SeatStands.trans (h : SeatStands s t) (k : SeatStands t u) : SeatStands s u := by
  obtain ⟨pending, host, proc⟩ := h
  obtain ⟨pending', host', proc'⟩ := k
  refine ⟨pending'.trans pending, host'.trans host, ?_⟩
  rw [proc', proc]

theorem seatStands_of_eq (pending : t.pending = s.pending) (host : t.host = s.host) (proc : t.proc = s.proc) : SeatStands s t :=
  ⟨pending, host, by rw [proc]⟩

theorem ringed_of_seatStands (h : s.ringed) (k : SeatStands s t) : t.ringed := by
  obtain ⟨-, host, proc⟩ := k
  unfold State.ringed at h ⊢
  rw [host, proc]
  exact h

/-- The link's work leaves the queue, the Host Window and the processor. -/
theorem commandBlind_seat (s : State) : CommandBlind fun t => t.pending = s.pending ∧ t.host = s.host ∧ t.proc = s.proc where
  present t e h := by simpa using h
  complete _ _ _ _ h := h
  apart k h := by rwa [k.pending, k.host, k.proc]
  swap t _ h := by simpa using h
  outTurn f t i h := by rwa [outStreamTurn_frame t f i]
  inTurn b f r words t i h := by rwa [inStreamTurn_frame t b f r words i]

theorem seatStands_endCommand (s : State) (c : Command) (status : CommandStatus) (result : CommandResult) :
    SeatStands s (s.endCommand c status result) := ⟨rfl, rfl, rfl⟩

theorem seatStands_readCommand (s : State) : SeatStands s s.readCommand := by
  unfold State.readCommand
  split
  · exact ⟨rfl, rfl, rfl⟩
  · exact ⟨rfl, rfl, rfl⟩

theorem seatStands_lookForCommand (s : State) : SeatStands s s.lookForCommand := by
  unfold State.lookForCommand State.beginCommand
  split
  · split
    · exact seatStands_readCommand s
    · exact ⟨rfl, rfl, rfl⟩
  · exact ⟨rfl, rfl, rfl⟩

/-- An owner leaves the queue and the Host Window, and of the processor all but its state (R155, R156). -/
theorem seatStands_owned {c : Command} (owned : Owned c s t) : SeatStands s t := by
  have blind := commandBlind_seat s
  have linked {u : State} (h : u.pending = s.pending ∧ u.host = s.host ∧ u.proc = s.proc) : SeatStands s u :=
    seatStands_of_eq h.1 h.2.1 h.2.2
  have ends {u : State} (h : SeatStands s u) (status : CommandStatus) (result : CommandResult) :
      SeatStands s (u.endCommand c status result) := h.trans (seatStands_endCommand u c status result)
  cases owned with
  | ends status result => exact seatStands_endCommand s c _ _
  | configures k _ => exact ⟨rfl, rfl, rfl⟩
  | startsNow _ => exact ends (linked (blind.startedNow ⟨rfl, rfl, rfl⟩)) _ _
  | startsWaiting w timeout _ => exact ⟨rfl, rfl, rfl⟩
  | stopsWaiting _ => exact linked (blind.enterStopped _ ⟨rfl, rfl, rfl⟩)
  | stopsRunning _ => exact linked (blind.linkStable.stopWhenDone ⟨rfl, rfl, rfl⟩)
  | joinsStop _ _ => exact ⟨rfl, rfl, rfl⟩
  | opens r i sh marker _ _ _ _ =>
    cases marker with
    | none => exact ⟨rfl, rfl, rfl⟩
    | some m => exact ⟨rfl, rfl, rfl⟩
  | closes i _ _ => exact ⟨rfl, rfl, rfl⟩
  | restarts i n _ _ => exact ⟨rfl, rfl, rfl⟩
  | queries i a => exact ⟨rfl, rfl, rfl⟩
  | holdsLoad a count basis _ _ => exact ⟨rfl, rfl, rfl⟩
  | performsLoad a count basis _ => exact ⟨rfl, rfl, rfl⟩
  | commits result _ _ _ => exact ends (linked (by simp)) _ _
  | armsSwap _ _ _ => exact ⟨rfl, rfl, rfl⟩
  | cancels _ =>
    refine ends ?_ _ _
    unfold State.cancelOutstanding
    split
    · exact ⟨rfl, rfl, rfl⟩
    · exact ⟨rfl, rfl, rfl⟩
  | selects r result => exact ⟨rfl, rfl, rfl⟩
  | posts e result => exact ends (linked (by simp)) _ _
  | armsCorrupt _ => exact ⟨rfl, rfl, rfl⟩
  | armsDrop _ => exact ⟨rfl, rfl, rfl⟩

/-! ## After the look -/

/-- After the look of a READY engine with its ring no record is posted beside an IDLE processor (R153). -/
theorem postedInv_lookForCommand (h : s.ringed) : PostedInv s.lookForCommand := by
  intro ready
  obtain ⟨-, host, -⟩ := seatStands_lookForCommand s
  have ring := h (host ▸ ready)
  rw [lookForCommand_eq_looked] at ready ⊢
  exact posted_of_looked s ring ready

theorem ringed_of_postedInv (h : PostedInv s) : s.ringed := fun ready => (h ready).1

/-- An engine that is not READY asks nothing of the command ring. -/
theorem postedInv_of_not_ready (h : s.host.engine ≠ .ready) : PostedInv s := fun ready => absurd ready h

theorem postedInv_of_eq (h : PostedInv s) (host : t.host = s.host) (proc : t.proc = s.proc) : PostedInv t := by
  unfold PostedInv at h ⊢
  rwa [host, proc]

theorem commandBlind_postedInv : CommandBlind PostedInv where
  present s e h := postedInv_of_eq h (by simp) (by simp)
  complete _ _ _ _ h := postedInv_of_eq h rfl rfl
  apart k h := postedInv_of_eq h k.host k.proc
  swap s _ h := postedInv_of_eq h (by simp) (by simp)
  outTurn f s i h := by
    have frame := outStreamTurn_frame s f i
    exact postedInv_of_eq h (by rw [frame]) (by rw [frame])
  inTurn b f r words s i h := by
    have frame := inStreamTurn_frame s b f r words i
    exact postedInv_of_eq h (by rw [frame]) (by rw [frame])

/-- In RESETTING and in OFF the engine is not READY. -/
theorem offWhenQuiet_not_ready (h : s.host.engine = .resetting) : s.offWhenQuiet.host.engine ≠ .ready := by
  unfold State.offWhenQuiet
  split
  · simp
  · simp [h]

theorem postedInv_readCommand (h : s.ringed) : PostedInv s.readCommand := by
  intro ready
  obtain ⟨-, host, -⟩ := seatStands_readCommand s
  obtain ⟨ring, held⟩ := Option.isSome_iff_exists.1 (h (host ▸ ready))
  rw [readCommand_eq held]
  simp [State.commandServed, held]

/-- The end of a held command looks for the next record (R153, R156). -/
theorem postedInv_endHeld (h : s.ringed) (c : Command) (status : CommandStatus) (result : CommandResult) :
    PostedInv (s.endHeld c status result) := postedInv_lookForCommand (ringed_of_seatStands h (seatStands_endCommand s c status result))

theorem postedInv_takeAcknowledge (h : PostedInv s) (v : BitVec 16) : PostedInv (s.takeAcknowledge v) := by
  unfold State.takeAcknowledge
  split
  · split
    · exact commandBlind_postedInv.present _ _ h
    · split
      · exact h
      · split
        · exact commandBlind_postedInv.present _ _ h
        · exact h
  · exact h

theorem postedInv_takeCommandNotify (h : PostedInv s) (v : BitVec 16) : PostedInv (s.takeCommandNotify v) := by
  have ringed := ringed_of_postedInv h
  unfold State.takeCommandNotify
  split
  · split
    · exact commandBlind_postedInv.present _ _ h
    · split
      · exact commandBlind_postedInv.present _ _ h
      · exact postedInv_lookForCommand (s := { s with proc := s.proc.withProducer v.toNat }) ringed
  · exact h

/-- The changes of a change list end with the look, or leave the processor held. -/
theorem postedInv_takeChanges (h : PostedInv s) (c : Command) (working : Bank) (a : Addr) (count next : Nat) (entries : List Word) :
    PostedInv (s.takeChanges c working a count next entries) := by
  have ringed := ringed_of_postedInv h
  unfold State.takeChanges
  split
  · exact postedInv_endHeld (s := { s with sched.load := .none }) ringed _ _ _
  · next done _ =>
    split
    · exact postedInv_endHeld (s := { s with sched.pending := done, sched.load := .none }) ringed _ _ _
    · exact h

theorem postedInv_handOn (h : PostedInv s) : PostedInv s.handOn := by
  rcases handOn_cases s with ⟨-, e⟩ | ⟨-, place, ⟨-, e⟩ | ⟨-, -, e⟩ | ⟨-, -, ⟨i, -, e⟩ | ⟨-, e⟩⟩⟩
  · rwa [e]
  · rw [e]
    exact h
  · rw [e]
    exact postedInv_readCommand (ringed_of_postedInv h)
  · rw [e]
    have elsewhere := Elsewhere.serveRetirement s i place
    exact postedInv_of_eq h elsewhere.host elsewhere.proc
  · rwa [e]

/-- Every change leaves the processor with nothing posted beside IDLE, since those that free it end with the look. -/
theorem postedInv_acts (h : PostedInv s) (acts : Acts s t) : PostedInv t := by
  have ringed := ringed_of_postedInv h
  cases acts with
  | nothing => exact h
  | discards tag resetting => exact postedInv_of_not_ready (offWhenQuiet_not_ready resetting)
  | answers tag _ => exact h
  | writesHost w engine =>
    unfold PostedInv at h ⊢
    rwa [engine]
  | loads off => exact postedInv_of_not_ready (by simp)
  | faultsAtEnable cause _ => exact postedInv_of_not_ready (by simp)
  | faults tag cause _ => exact postedInv_of_not_ready (by simp)
  | resets _ => exact postedInv_of_not_ready (offWhenQuiet_not_ready rfl)
  | hardResets source levels after =>
    cases after
    exact postedInv_of_not_ready (by simp [State.reset])
  | readies words ring config _ _ => exact fun _ => ⟨rfl, fun _ => rfl⟩
  | notifiesCommand v => exact postedInv_takeCommandNotify h v
  | acknowledges v => exact postedInv_takeAcknowledge h v
  | notifiesNoRing n v => exact commandBlind_postedInv.present _ _ h
  | looks => exact postedInv_lookForCommand ringed
  | takes c taking owned =>
    have taken : s.afterTaking.ringed := ringed
    exact postedInv_lookForCommand (ringed_of_seatStands taken (seatStands_owned owned))
  | performsLoad a count basis _ _ _ => exact h
  | takesChanges c working a count next entries _ _ _ => exact postedInv_takeChanges (s := s.answered .scheduleUnit) h _ _ _ _ _ _
  | failsLoad c result _ _ _ => exact postedInv_endHeld (s := { s.answered .scheduleUnit with sched.load := .none }) ringed _ _ _
  | endsQuery c status _ _ _ => exact postedInv_endHeld (s := s.answered .streamTable) ringed _ _ _
  | closes i c _ _ _ _ =>
    exact postedInv_endHeld
      (s := ((({ s with freePool := s.freePool + (s.stream i).depth } : State).setStream i Stream.reset).unbindMarkers i)) ringed _ _ _
  | restarts i c n _ _ _ _ => exact postedInv_endHeld (s := s.setStream i _) ringed _ _ _
  | writesRing =>
    unfold State.tryRingWrite
    split
    · split
      · exact h
      · exact h
    · exact h
  | writtenRing _ _ => exact postedInv_handOn (s := { s.answered .completionUnit with comp := s.comp.recordWritten }) h
  | servesLoss _ _ => exact h
  | servesCommand _ _ => exact postedInv_readCommand ringed
  | expiresHoldoff _ _ => exact h
  | link acts => exact commandBlind_postedInv.linkActs h acts
  | stream acts =>
    have elsewhere := elsewhere_of_streamActs acts
    exact postedInv_of_eq h elsewhere.host elsewhere.proc

/-! ## The seat of every change -/

/-- No change touches the queue; and the engine is not READY after it, or the engine state and the command ring stand, or the engine
has just taken its command ring (R183). -/
def SeatKept (s t : State) : Prop :=
  t.pending = s.pending
  ∧ (t.host.engine ≠ .ready ∨ (t.host.engine = s.host.engine ∧ t.proc.ring = s.proc.ring) ∨ t.proc.ring.isSome = true)

theorem seatKept_of_seatStands (h : SeatStands s t) : SeatKept s t := by
  obtain ⟨pending, host, proc⟩ := h
  exact ⟨pending, .inr (.inl ⟨by rw [host], by rw [proc]⟩)⟩

theorem seatStands_endHeld (s : State) (c : Command) (status : CommandStatus) (result : CommandResult) :
    SeatStands s (s.endHeld c status result) := (seatStands_endCommand s c status result).trans (seatStands_lookForCommand _)

theorem seatStands_present (s : State) (e : Event) : SeatStands s (s.present e) := seatStands_of_eq (by simp) (by simp) (by simp)

theorem offWhenQuiet_pending (s : State) : s.offWhenQuiet.pending = s.pending := by
  unfold State.offWhenQuiet
  split <;> rfl

theorem seatKept_takeCommandNotify (s : State) (v : BitVec 16) : SeatKept s (s.takeCommandNotify v) := by
  unfold State.takeCommandNotify
  split
  · split
    · exact seatKept_of_seatStands (seatStands_present s _)
    · split
      · exact seatKept_of_seatStands (seatStands_present s _)
      · obtain ⟨pending, host, proc⟩ := seatStands_lookForCommand { s with proc := s.proc.withProducer v.toNat }
        exact ⟨pending, .inr (.inl ⟨by rw [host], by rw [proc]; rfl⟩)⟩
  · exact seatKept_of_seatStands ⟨rfl, rfl, rfl⟩

theorem seatStands_takeAcknowledge (s : State) (v : BitVec 16) : SeatStands s (s.takeAcknowledge v) := by
  unfold State.takeAcknowledge
  split
  · split
    · exact seatStands_present s _
    · split
      · exact ⟨rfl, rfl, rfl⟩
      · split
        · exact seatStands_present s _
        · exact ⟨rfl, rfl, rfl⟩
  · exact ⟨rfl, rfl, rfl⟩

theorem seatStands_takeChanges (s : State) (c : Command) (working : Bank) (a : Addr) (count next : Nat) (entries : List Word) :
    SeatStands s (s.takeChanges c working a count next entries) := by
  unfold State.takeChanges
  split
  · exact seatStands_endHeld { s with sched.load := .none } _ _ _
  · next done _ =>
    split
    · exact seatStands_endHeld { s with sched.pending := done, sched.load := .none } _ _ _
    · exact ⟨rfl, rfl, rfl⟩

theorem seatStands_elsewhere (h : Elsewhere s t) : SeatStands s t := seatStands_of_eq h.pending h.host h.proc

theorem seatStands_handOn (s : State) : SeatStands s s.handOn := by
  rcases handOn_cases s with ⟨-, e⟩ | ⟨-, place, ⟨-, e⟩ | ⟨-, -, e⟩ | ⟨-, -, ⟨i, -, e⟩ | ⟨-, e⟩⟩⟩
  · rw [e]
    exact ⟨rfl, rfl, rfl⟩
  · rw [e]
    exact ⟨rfl, rfl, rfl⟩
  · rw [e]
    exact seatStands_readCommand s
  · rw [e]
    exact seatStands_elsewhere (.serveRetirement s i place)
  · rw [e]
    exact ⟨rfl, rfl, rfl⟩

/-- Every change keeps the seat. -/
theorem seatKept_acts (acts : Acts s t) : SeatKept s t := by
  have kept {u : State} (h : SeatStands s u) : SeatKept s u := seatKept_of_seatStands h
  cases acts with
  | nothing => exact kept ⟨rfl, rfl, rfl⟩
  | discards tag resetting =>
    exact ⟨offWhenQuiet_pending (s.answered tag), .inl (offWhenQuiet_not_ready (s := s.answered tag) resetting)⟩
  | answers tag _ => exact kept ⟨rfl, rfl, rfl⟩
  | writesHost w engine => exact ⟨rfl, .inr (.inl ⟨engine, rfl⟩)⟩
  | loads off => exact ⟨rfl, .inl (by simp)⟩
  | faultsAtEnable cause _ => exact ⟨rfl, .inl (by simp)⟩
  | faults tag cause _ => exact ⟨rfl, .inl (by simp)⟩
  | resets _ => exact ⟨offWhenQuiet_pending s.enterResetting, .inl (offWhenQuiet_not_ready rfl)⟩
  | hardResets source levels after =>
    cases after
    exact ⟨rfl, .inl (by simp [State.reset])⟩
  | readies words ring config _ _ => exact ⟨rfl, .inr (.inr rfl)⟩
  | notifiesCommand v => exact seatKept_takeCommandNotify s v
  | acknowledges v => exact kept (seatStands_takeAcknowledge s v)
  | notifiesNoRing n v => exact kept (seatStands_present s _)
  | looks => exact kept (seatStands_lookForCommand s)
  | takes c taking owned =>
    obtain ⟨pending, host, proc⟩ := (seatStands_owned owned).trans (seatStands_lookForCommand _)
    exact ⟨pending, .inr (.inl ⟨by rw [host]; rfl, by rw [proc]; rfl⟩)⟩
  | performsLoad a count basis _ _ _ => exact kept ⟨rfl, rfl, rfl⟩
  | takesChanges c working a count next entries _ _ _ => exact kept (seatStands_takeChanges (s.answered .scheduleUnit) _ _ _ _ _ _)
  | failsLoad c result _ _ _ => exact kept (seatStands_endHeld { s.answered .scheduleUnit with sched.load := .none } _ _ _)
  | endsQuery c status _ _ _ => exact kept (seatStands_endHeld (s.answered .streamTable) _ _ _)
  | closes i c _ _ _ _ =>
    exact kept (seatStands_endHeld
      ((({ s with freePool := s.freePool + (s.stream i).depth } : State).setStream i Stream.reset).unbindMarkers i) _ _ _)
  | restarts i c n _ _ _ _ => exact kept (seatStands_endHeld (s.setStream i _) _ _ _)
  | writesRing =>
    unfold State.tryRingWrite
    split
    · split
      · exact kept ⟨rfl, rfl, rfl⟩
      · exact kept ⟨rfl, rfl, rfl⟩
    · exact kept ⟨rfl, rfl, rfl⟩
  | writtenRing _ _ => exact kept (seatStands_handOn { s.answered .completionUnit with comp := s.comp.recordWritten })
  | servesLoss _ _ => exact kept ⟨rfl, rfl, rfl⟩
  | servesCommand _ _ => exact kept (seatStands_readCommand s)
  | expiresHoldoff _ _ => exact kept ⟨rfl, rfl, rfl⟩
  | link acts =>
    obtain ⟨pending, host, proc⟩ := (commandBlind_seat s).linkActs ⟨rfl, rfl, rfl⟩ acts
    exact kept (seatStands_of_eq pending host proc)
  | stream acts => exact kept (seatStands_elsewhere (elsewhere_of_streamActs acts))

theorem ringed_acts (h : s.ringed) (acts : Acts s t) : t.ringed := by
  obtain ⟨-, off | ⟨engine, ring⟩ | taken⟩ := seatKept_acts acts
  · exact fun ready => absurd ready off
  · intro ready
    rw [ring]
    exact h (engine ▸ ready)
  · exact fun _ => taken

end
end Sys2Proof.Machine

/-!
Shapes and claims: a stream is CLOSED exactly when it has no shape (R37), and free places and claims never stand together (R167, R169).
-/
namespace Sys2Proof.Machine

/-- A stream is CLOSED exactly when it has no shape (R37). -/
def Stream.shaped (c : Stream) : Prop := c.state = .closed ↔ c.shape = none

/-- Every stream is CLOSED exactly when it has no shape. -/
def ShapesInv (s : State) : Prop := ∀ i : StreamId, (s.stream i).shaped

section
variable {s t u : State} {c : Stream}

/-! ## Shapes -/

theorem shapesInv_setStream (h : ShapesInv s) (i : StreamId) (c : Stream) (shaped : (s.stream i).shaped → c.shaped) :
    ShapesInv (s.setStream i c) := by
  intro j
  rw [stream_setStream]
  split
  · exact shaped (h i)
  · exact h j

theorem shapesInv_of_streams (h : ShapesInv s) (streams : t.streams = s.streams) : ShapesInv t :=
  fun i => (stream_congr streams i).symm ▸ h i

/-- A stream that is not CLOSED has a shape, whatever its state becomes. -/
theorem shaped_withState (h : c.shaped) (opened : c.state ≠ .closed) {d : Stream} (shape : d.shape = c.shape)
    (state : d.state ≠ .closed) : d.shaped := by
  unfold Stream.shaped at h ⊢
  rw [shape]
  exact iff_of_false state fun none => opened (h.2 none)

theorem shaped_moved (h : c.shaped) (named : Bool) : (c.moved named).shaped := by
  unfold Stream.moved
  split
  · exact h
  · next state =>
    split
    · exact shaped_withState h (by simp [state]) rfl (by simp)
    · exact h
  · next state =>
    split
    · exact h
    · exact shaped_withState h (by simp [state]) rfl (by simp)
  · exact h
  · exact h

theorem shapesInv_swap (h : ShapesInv s) : ShapesInv s.swap := by
  intro i
  rw [stream_swap, moveAtSwap_eq_moved]
  exact shaped_moved (h i) _

theorem commandBlind_shapesInv : CommandBlind ShapesInv where
  present s e h := shapesInv_of_streams h (by simp)
  complete _ _ _ _ h := h
  apart k h := shapesInv_of_streams h k.streams
  swap _ _ h := shapesInv_swap h
  outTurn f s i h j := by
    rw [stream_outStreamTurn]
    exact h j
  inTurn b f r words s i h j := by
    rw [stream_inStreamTurn]
    exact h j

theorem shapesInv_faultStream (h : ShapesInv s) (i : StreamId) (cause : StreamFault) (n : Nat) :
    ShapesInv (s.faultStream i cause n) := by
  have told {u : State} (hu : ShapesInv u) (e : Event) : ShapesInv (u.present e) := commandBlind_shapesInv.present u e hu
  have faulted (opened : (s.stream i).state ≠ .closed) :
      ShapesInv (s.setStream i { s.stream i with state := .faulted, faultCause := some cause }) :=
    shapesInv_setStream h i _ fun shaped => shaped_withState shaped opened rfl (by simp)
  unfold State.faultStream
  dsimp only
  split
  · exact h
  · next state => exact told (faulted (by simp [state])) _
  · next state => exact told (faulted (by simp [state])) _
  · exact h
  · split
    · exact told (shapesInv_setStream h i { s.stream i with faultCause := some cause } id) _
    · exact h

/-- A context that keeps its state and its shape. -/
theorem shapesInv_alike (h : ShapesInv s) (i : StreamId) {c : Stream} (state : c.state = (s.stream i).state)
    (shape : c.shape = (s.stream i).shape) : ShapesInv (s.setStream i c) :=
  shapesInv_setStream h i c fun shaped => by
    unfold Stream.shaped at shaped ⊢
    rwa [state, shape]

theorem takeSamples_state_shape (c : Stream) (samples : List Word) :
    (c.takeSamples samples).state = c.state ∧ (c.takeSamples samples).shape = c.shape := by
  unfold Stream.takeSamples
  split <;> exact ⟨rfl, rfl⟩

theorem takeWrite_state_shape (c : Stream) (n : Nat) : (c.takeWrite n).state = c.state ∧ (c.takeWrite n).shape = c.shape := by
  unfold Stream.takeWrite
  split <;> exact ⟨rfl, rfl⟩

theorem shapesInv_tryRead (h : ShapesInv s) (i : StreamId) : ShapesInv (s.tryRead i) := by
  unfold State.tryRead
  dsimp only
  split
  · split
    · exact h
    · split
      · exact shapesInv_alike h i (c := { s.stream i with dataInFlight := some _ }) rfl rfl
      · exact h
  · exact h

theorem shapesInv_tryWrite (h : ShapesInv s) (i : StreamId) : ShapesInv (s.tryWrite i) := by
  unfold State.tryWrite
  dsimp only
  split
  · split
    · exact h
    · split
      · exact shapesInv_alike h i (c := { s.stream i with dataInFlight := some _ }) rfl rfl
      · exact h
  · exact h

/-- Retirements keep every shape (R94). -/
theorem shapesInv_retireFinished (h : ShapesInv s) (i : StreamId) : ShapesInv (s.retireFinished i) := by
  intro j
  rw [stream_retireFinished]
  exact h j

theorem shapesInv_serveRetirement (h : ShapesInv s) (i : StreamId) : ShapesInv (s.serveRetirement i) := by
  intro j
  by_cases other : j = i
  · subst other
    exact serveRetirement_keeps (K := Stream.shaped) (fun _ _ shaped => shaped) s j (h j)
  · rw [stream_serveRetirement_of_ne s other]
    exact h j

theorem shapesInv_acceptOpen (h : ShapesInv s) (c : Command) (i : StreamId) (sh : Shape) (marker : Option (MarkerId × Nat)) :
    ShapesInv (s.acceptOpen c i sh marker) := by
  have opened : ShapesInv (({ s with freePool := s.freePool - sh.depth } : State).setStream i (Stream.openAs sh)) :=
    shapesInv_setStream h i _ fun _ => by simp [Stream.shaped, Stream.openAs]
  cases marker with
  | none => exact shapesInv_of_streams opened rfl
  | some m => exact shapesInv_of_streams opened rfl

theorem streamStable_shapesInv : StreamStable ShapesInv where
  toCommandBlind := commandBlind_shapesInv
  stand k h := shapesInv_of_streams h k.1
  reset {t} _ streams _ i := by
    have context : t.stream i = Stream.reset := by simp [State.stream, streams]
    rw [context]
    simp [Stream.shaped, Stream.reset]
  swapAny := shapesInv_swap
  producer i v _ h := shapesInv_alike h i rfl rfl
  accept c r i sh marker _ _ _ h := shapesInv_acceptOpen h c i sh marker
  quiesce i operation opened _ h := shapesInv_setStream h i _ fun shaped => shaped_withState shaped opened rfl (by simp [Stream.quiesce])
  fault i cause n h := shapesInv_faultStream h i cause n
  readDescriptor {s} i sh _ h := shapesInv_alike h i (c := { s.stream i with descriptorInFlight := true }) rfl rfl
  descriptorAnswered {s} i h := shapesInv_alike (s := s.answered (.descriptor i)) h i rfl rfl
  takeDescriptor {s} i words _ _ h := shapesInv_alike (s := s.answered (.descriptor i)) h i rfl rfl
  tryRead i h := shapesInv_tryRead h i
  tryWrite i h := shapesInv_tryWrite h i
  dataAnswered {s} i h := shapesInv_alike (s := s.answered (.data i)) h i rfl rfl
  takeSamples {s} i samples q _ _ _ _ h := by
    obtain ⟨state, shape⟩ := takeSamples_state_shape { s.stream i with dataInFlight := none } samples
    exact shapesInv_alike (s := s.answered (.data i)) h i state shape
  takeWrite {s} i n h := by
    obtain ⟨state, shape⟩ := takeWrite_state_shape (s.stream i) n
    exact shapesInv_alike h i state shape
  retireFinished i h := shapesInv_retireFinished h i
  drain i _ h := shapesInv_alike h i rfl rfl
  close i _ h := shapesInv_setStream h i _ fun _ => by simp [Stream.shaped, Stream.reset]
  restart i named n finished _ h := by
    obtain ⟨quiescing, -, -⟩ := (quiesceOver_iff _).1 finished
    exact shapesInv_setStream h i _ fun shaped =>
      shaped_withState shaped (by simp [quiescing]) rfl (by cases named <;> simp [Stream.restartAt])
  serve i h := shapesInv_serveRetirement h i

end
end Sys2Proof.Machine

/-!
The claims on holding places (R167, R169): a change that frees no place makes no claim beside a free place, the one that frees a place
hands it on, and so free places and claims never stand together.
-/
namespace Sys2Proof.Machine

/-- From `s` to `t` the engine state stands, no place frees, and no claim is made beside a free place. -/
structure ClaimsStand (s t : State) : Prop where
  engine : t.host.engine = s.host.engine
  places : s.placesInUse ≤ t.placesInUse
  claims : t.placesInUse < 32 → s.noClaim → t.noClaim

/-- The holding list of `t` is that of `s` with records entered at its tail, and nothing else of the Completion Unit differs. -/
def Entered (s t : State) : Prop := ∃ records, t.comp = { s.comp with holding := s.comp.holding ++ records }

section
variable {s t u : State} {c : Stream}

theorem Entered.refl (s : State) : Entered s s := ⟨[], by simp⟩

theorem Entered.trans (h : Entered s t) (k : Entered t u) : Entered s u := by
  obtain ⟨first, h⟩ := h
  obtain ⟨second, k⟩ := k
  exact ⟨first ++ second, by rw [k, h]; simp⟩

theorem Entered.places (h : Entered s t) : s.placesInUse ≤ t.placesInUse := by
  obtain ⟨records, h⟩ := h
  simp only [State.placesInUse, h, List.length_append]
  omega

theorem Entered.lossCount (h : Entered s t) : t.comp.lossCount = s.comp.lossCount := by
  obtain ⟨_, h⟩ := h
  rw [h]

theorem entered_retireReporting (s : State) (i : StreamId) (e : Entry) (status : BlockStatus) :
    Entered s (s.retireReporting i e status) := ⟨_, rfl⟩

/-- Retirements enter their records, and touch nothing else of the Completion Unit (R94). -/
theorem entered_retireHeads (n : Nat) (i : StreamId) : ∀ s : State, Entered s (retireHeads n i s) := by
  induction n with
  | zero => exact fun s => .refl s
  | succ n ih =>
    intro s
    unfold retireHeads
    split
    · exact .refl s
    · split
      · exact .refl s
      · split
        · split
          · exact (entered_retireReporting s i _ _).trans (ih _)
          · exact .refl s
        · exact Entered.trans (t := s.retireSilently i) (.refl s) (ih _)

/-- A list within the bound of heads looked at has no waiting head after retirements that leave a place free (R94, R96). -/
theorem retireHeads_not_waiting (n : Nat) (i : StreamId) :
    ∀ s : State, (s.stream i).list.length ≤ n → (retireHeads n i s).placesInUse < 32 →
      ((retireHeads n i s).stream i).retirementWaiting = false := by
  induction n with
  | zero =>
    intro s short _
    have empty := List.eq_nil_of_length_eq_zero (Nat.le_zero.1 short)
    simp [retireHeads, Stream.retirementWaiting, empty]
  | succ n ih =>
    intro s short place
    rw [retireHeads] at place ⊢
    split at place
    · next list => simp [Stream.retirementWaiting, list]
    · next e rest list =>
      have shorter : (s.stream i).popHead.list.length ≤ n := by simpa [Stream.popHead, list] using short
      split at place
      · next unfinished => simp [unfinished, Stream.retirementWaiting, list]
      · next status finished =>
        split at place
        · next reports =>
          rw [if_pos reports]
          split at place
          · next free =>
            rw [if_pos free]
            exact ih _ (by rwa [State.retireReporting, stream_setStream_self]) place
          · next full =>
            simp [State.freePlace] at full
            omega
        · next silent =>
          rw [if_neg silent]
          exact ih _ (by rwa [State.retireSilently, stream_setStream_self]) place

/-! ## What frees no place -/

theorem ClaimsStand.refl (s : State) : ClaimsStand s s := ⟨rfl, le_rfl, fun _ h => h⟩

theorem ClaimsStand.trans (h : ClaimsStand s t) (k : ClaimsStand t u) : ClaimsStand s u where
  engine := k.engine.trans h.engine
  places := h.places.trans k.places
  claims place free := k.claims place (h.claims (lt_of_le_of_lt k.places place) free)

/-- Nothing of the holding list and its claims differs. -/
theorem claimsStand_of_eq (engine : t.host.engine = s.host.engine) (comp : t.comp = s.comp) (proc : t.proc.state = s.proc.state)
    (waits : ∀ i, (t.stream i).retirementWaiting = (s.stream i).retirementWaiting) : ClaimsStand s t where
  engine := engine
  places := by rw [State.placesInUse, State.placesInUse, comp]
  claims _ free := by
    obtain ⟨lost, waiting, heads⟩ := free
    exact ⟨by rw [comp]; exact lost, by rw [proc]; exact waiting, fun i => (waits i).trans (heads i)⟩

theorem claimsStand_of_streams (engine : t.host.engine = s.host.engine) (comp : t.comp = s.comp) (proc : t.proc.state = s.proc.state)
    (streams : t.streams = s.streams) : ClaimsStand s t :=
  claimsStand_of_eq engine comp proc fun i => by rw [stream_congr streams i]

theorem claimsStand_issue (s : State) (tag : Requester) (a : Addr) (x : Transfer) : ClaimsStand s (s.issue tag a x) :=
  claimsStand_of_streams rfl rfl rfl rfl

theorem claimsStand_answered (s : State) (tag : Requester) : ClaimsStand s (s.answered tag) := claimsStand_of_streams rfl rfl rfl rfl

/-- One stream changes, and makes no claim. -/
theorem claimsStand_setStream (s : State) (i : StreamId) (c : Stream)
    (waits : (s.stream i).retirementWaiting = false → c.retirementWaiting = false) : ClaimsStand s (s.setStream i c) where
  engine := rfl
  places := le_rfl
  claims _ := by
    rintro ⟨lost, waiting, heads⟩
    refine ⟨lost, waiting, fun j => ?_⟩
    rw [stream_setStream]
    split
    · exact waits (heads i)
    · exact heads j

/-- A stream whose list stands makes no claim. -/
theorem claimsStand_setList (s : State) (i : StreamId) (c : Stream) (list : c.list = (s.stream i).list) :
    ClaimsStand s (s.setStream i c) :=
  claimsStand_setStream s i c fun head => by
    unfold Stream.retirementWaiting at head ⊢
    rwa [list]

/-- An event is lost only without a free place (R167). -/
theorem claimsStand_present (s : State) (e : Event) : ClaimsStand s (s.present e) := by
  unfold State.present
  split
  · split
    · refine ⟨rfl, ?_, fun _ free => free⟩
      rw [placesInUse_enter]
      exact Nat.le_succ _
    · next full =>
      exact ⟨rfl, le_rfl, fun place => absurd (decide_eq_true place) full⟩
  · exact .refl s

theorem claimsStand_complete (s : State) (c : Command) (status : CommandStatus) (result : CommandResult) :
    ClaimsStand s (s.complete c status result) where
  engine := rfl
  places := by
    simp only [State.placesInUse, complete_holding, complete_reservations, List.length_append, List.length_singleton]
    omega
  claims _ free := free

theorem claimsStand_endCommand (s : State) (c : Command) (status : CommandStatus) (result : CommandResult) :
    ClaimsStand s (s.endCommand c status result) := by
  obtain ⟨engine, places, claims⟩ := claimsStand_complete s c status result
  refine ⟨engine, places, fun place free => ?_⟩
  obtain ⟨lost, -, heads⟩ := claims place free
  exact ⟨lost, by simp [State.endCommand], heads⟩

/-- A record is waited for only without a free place (R153). -/
theorem claimsStand_readCommand (s : State) : ClaimsStand s s.readCommand := by
  unfold State.readCommand
  split
  · exact .refl s
  · refine ⟨rfl, Nat.le_trans (Nat.le_succ _) (placesInUse_reserve s).ge, fun _ ⟨lost, _, heads⟩ => ?_⟩
    exact ⟨lost, by simp, heads⟩

theorem claimsStand_lookForCommand (s : State) : ClaimsStand s s.lookForCommand := by
  unfold State.lookForCommand State.beginCommand
  split
  · split
    · exact claimsStand_readCommand s
    · next full =>
      exact ⟨rfl, le_rfl, fun place => absurd (decide_eq_true place) full⟩
  · exact .refl s

theorem claimsStand_endHeld (s : State) (c : Command) (status : CommandStatus) (result : CommandResult) :
    ClaimsStand s (s.endHeld c status result) :=
  (claimsStand_endCommand s c status result).trans (claimsStand_lookForCommand _)

theorem claimsStand_swap (s : State) : ClaimsStand s s.swap := by
  refine claimsStand_of_eq (by simp) (by simp) (by simp) fun i => ?_
  have list : (s.swap.stream i).list = (s.stream i).list := by
    rw [stream_swap, moveAtSwap_eq_moved]
    unfold Stream.moved
    split <;> try rfl
    all_goals split <;> rfl
  rw [Stream.retirementWaiting, Stream.retirementWaiting, list]

/-- A list of at most two entries has all its finished heads looked at (R88, R96). -/
theorem claimsStand_retireFinished (s : State) (i : StreamId) (c : Stream) (short : c.list.length ≤ 2) :
    ClaimsStand s ((s.setStream i c).retireFinished i) := by
  have entered := entered_retireHeads 2 i (s.setStream i c)
  have frame := retireFinished_frame (s.setStream i c) i
  refine ⟨by rw [frame]; rfl, entered.places, fun place => ?_⟩
  rintro ⟨lost, waiting, heads⟩
  refine ⟨entered.lossCount.trans lost, by rw [frame]; exact waiting, fun j => ?_⟩
  by_cases other : j = i
  · subst other
    exact retireHeads_not_waiting 2 j _ (by rwa [stream_setStream_self]) place
  · rw [State.retireFinished, stream_retireHeads_of_ne 2 other, stream_setStream_of_ne _ _ other]
    exact heads j

/-! ## The link's work -/

/-- A stream with a shape holds at most two entries (R88). -/
theorem list_le_two (h : StreamsInv s) {i : StreamId} {sh : Shape} (shape : (s.stream i).shape = some sh) :
    (s.stream i).list.length ≤ 2 := by
  obtain ⟨-, -, -, rings⟩ := h
  obtain ⟨-, -, -, -, room, -⟩ := rings i sh shape
  omega

theorem claimsStand_outStreamTurn (h : StreamsInv s) (f : FrameNo) (i : StreamId) : ClaimsStand s (outStreamTurn f s i) := by
  unfold outStreamTurn
  dsimp only
  split
  · exact .refl s
  · next sh shape =>
    split
    · split
      · unfold State.goodTurn
        dsimp only
        have short : (assignSamples f ((s.stream i).samples.take sh.channels) (s.stream i).list).length ≤ 2 := by
          have indices := congrArg List.length (ringIndices_assignSamples f ((s.stream i).samples.take sh.channels) (s.stream i).list)
          simp only [List.length_map] at indices
          exact indices ▸ list_le_two h shape
        split
        · exact (claimsStand_present s _).trans (claimsStand_retireFinished _ i _ short)
        · exact claimsStand_retireFinished s i _ short
      · unfold State.underrunTurn
        dsimp only
        split
        · exact claimsStand_setList s i _ rfl
        · exact (claimsStand_setList s i { s.stream i with runFlag := true, runCount := 1 } rfl).trans (claimsStand_present _ _)
    · exact .refl s

theorem claimsStand_inStreamTurn (b : Bank) (f : FrameNo) (r : Resolution) (words : List Word) (s : State) (i : StreamId) :
    ClaimsStand s (inStreamTurn b f r words s i) := by
  unfold inStreamTurn
  dsimp only
  split
  · exact .refl s
  · split
    · exact .refl s
    · split
      · unfold State.takeInTurn
        dsimp only
        split
        · split
          · exact (claimsStand_present s _).trans (claimsStand_setList _ i _ (by simp))
          · exact claimsStand_setList s i _ rfl
        · split
          · exact claimsStand_setList s i _ rfl
          · exact (claimsStand_setList s i { s.stream i with runFlag := true, runCount := 1 } rfl).trans (claimsStand_present _ _)
      · exact .refl s

/-- The link's work frees no place, and makes no claim beside a free one. -/
theorem commandBlind_claimsStand (s : State) : CommandBlind fun t => StreamsInv t ∧ ClaimsStand s t where
  present t e h := ⟨commandBlind_streamsInv.present t e h.1, h.2.trans (claimsStand_present t e)⟩
  complete t c status result h := ⟨commandBlind_streamsInv.complete t c status result h.1, h.2.trans (claimsStand_complete t c _ _)⟩
  apart k h := ⟨commandBlind_streamsInv.apart k h.1,
    h.2.trans (claimsStand_of_streams (by rw [k.host]) k.comp (by rw [k.proc]) k.streams)⟩
  swap t armed h := ⟨commandBlind_streamsInv.swap t armed h.1, h.2.trans (claimsStand_swap t)⟩
  outTurn f t i h := ⟨commandBlind_streamsInv.outTurn f t i h.1, h.2.trans (claimsStand_outStreamTurn h.1 f i)⟩
  inTurn b f r words t i h := ⟨commandBlind_streamsInv.inTurn b f r words t i h.1, h.2.trans (claimsStand_inStreamTurn b f r words t i)⟩

theorem claimsStand_cancelOutstanding (s : State) : ClaimsStand s s.cancelOutstanding := by
  unfold State.cancelOutstanding
  split
  · exact .refl s
  · exact ClaimsStand.trans (t := { s with sched.commit := none }) (claimsStand_of_streams rfl rfl rfl rfl) (claimsStand_complete _ _ _ _)

/-- A taken record frees no place, and makes no claim beside a free one, whatever its owner makes of it. -/
theorem claimsStand_owned (h : StreamsInv s) {c : Command} (owned : Owned c s t) : ClaimsStand s t := by
  have blind := commandBlind_claimsStand s
  have here : StreamsInv s ∧ ClaimsStand s s := ⟨h, .refl s⟩
  have ends {u : State} (hu : ClaimsStand s u) (status : CommandStatus) (result : CommandResult) :
      ClaimsStand s (u.endCommand c status result) := hu.trans (claimsStand_endCommand u c status result)
  have linked {u : State} (hu : StreamsInv u ∧ ClaimsStand s u) : ClaimsStand s u := hu.2
  have same {u : State} (engine : u.host.engine = s.host.engine) (comp : u.comp = s.comp) (proc : u.proc.state = s.proc.state)
      (streams : u.streams = s.streams) : ClaimsStand s u := claimsStand_of_streams engine comp proc streams
  have relinked (k : Link) : ClaimsStand s { s with link := k } := same rfl rfl rfl rfl
  have holds {u : State} (hu : ClaimsStand s u) : ClaimsStand s (u.hold c) := by
    refine ⟨hu.engine, hu.places, fun place free => ?_⟩
    obtain ⟨lost, -, heads⟩ := hu.claims place free
    exact ⟨lost, by simp [State.hold], heads⟩
  cases owned with
  | ends status result => exact ends (.refl s) _ _
  | configures k _ => exact ends (relinked _) _ _
  | startsNow _ => exact ends (linked (blind.startedNow here)) _ _
  | startsWaiting w timeout _ => exact same rfl rfl rfl rfl
  | stopsWaiting _ => exact linked (blind.enterStopped _ (blind.apart rfl here))
  | stopsRunning _ => exact linked (blind.linkStable.stopWhenDone (blind.apart rfl here))
  | joinsStop _ _ => exact same rfl rfl rfl rfl
  | opens r i sh marker _ _ _ _ =>
    refine ends ((claimsStand_setStream s i (Stream.openAs sh) fun _ => rfl).trans (claimsStand_of_streams ?_ ?_ ?_ ?_)) _ _
    all_goals cases marker <;> rfl
  | closes i _ _ => exact holds (claimsStand_setList s i _ rfl)
  | restarts i n _ _ => exact holds (claimsStand_setList s i _ rfl)
  | queries i a => exact holds (claimsStand_issue s _ _ _)
  | holdsLoad a count basis _ _ => exact holds (u := { s with sched.load := _ }) (same rfl rfl rfl rfl)
  | performsLoad a count basis _ => exact holds (u := s.performLoad a count basis) (same rfl rfl rfl rfl)
  | commits result _ _ _ => exact ends (claimsStand_swap s) _ _
  | armsSwap _ _ _ => exact same rfl rfl rfl rfl
  | cancels _ =>
    exact ends (ClaimsStand.trans (t := { s with sched.swapArmed := false }) (same rfl rfl rfl rfl) (claimsStand_cancelOutstanding _)) _ _
  | selects r result => exact ends (u := s.takeSelects r) (same rfl rfl rfl rfl) _ _
  | posts e result => exact ends (claimsStand_present s e) _ _
  | armsCorrupt _ => exact ends (relinked _) _ _
  | armsDrop _ => exact ends (relinked _) _ _

/-! ## The rows of one stream -/

/-- A new entry at the tail of a list is not finished (R91). -/
theorem retirementWaiting_takeDescriptor (c : Stream) (words : Vector Word 4) (h : c.retirementWaiting = false) :
    (c.takeDescriptor words).retirementWaiting = false := by
  cases list : c.list with
  | nil => simp [Stream.retirementWaiting, Stream.takeDescriptor, list, descriptorEntry]
  | cons e rest => simpa [Stream.retirementWaiting, Stream.takeDescriptor, list] using h

/-- A write that may not finish a block leaves the finished marks of its entries (R131). -/
theorem retirementWaiting_takeWrite (c : Stream) (n : Nat) (may : c.mayIssue = false) (h : c.retirementWaiting = false) :
    (c.takeWrite n).retirementWaiting = false := by
  unfold Stream.takeWrite
  split
  · exact h
  · cases list : c.list with
    | nil => simp [Stream.retirementWaiting]
    | cons e rest =>
      simp only [Stream.retirementWaiting, list] at h
      simp only [Stream.retirementWaiting, List.map_cons, may, Entry.finishWhenFull, Bool.false_and]
      split <;> simpa [Entry.store] using h

theorem claimsStand_faultStream (s : State) (i : StreamId) (cause : StreamFault) (n : Nat) :
    ClaimsStand s (s.faultStream i cause n) := by
  have told (state : StreamState) (e : Event) :
      ClaimsStand s ((s.setStream i { s.stream i with state := state, faultCause := some cause }).present e) :=
    (claimsStand_setList s i { s.stream i with state := state, faultCause := some cause } rfl).trans (claimsStand_present _ e)
  unfold State.faultStream
  dsimp only
  split
  · exact .refl s
  · exact told _ _
  · exact told _ _
  · exact .refl s
  · split
    · exact told _ _
    · exact .refl s

theorem claimsStand_takeBlockNotify (s : State) (i : StreamId) (v : BitVec 16) : ClaimsStand s (s.takeBlockNotify i v) := by
  unfold State.takeBlockNotify
  dsimp only
  split
  · split
    · exact claimsStand_present s _
    · split
      · exact claimsStand_present s _
      · split
        · exact claimsStand_present s _
        · exact claimsStand_setList s i _ rfl
  · exact .refl s

theorem claimsStand_tryRead (s : State) (i : StreamId) : ClaimsStand s (s.tryRead i) := by
  unfold State.tryRead
  dsimp only
  split
  · split
    · exact .refl s
    · split
      · exact (claimsStand_setList s i { s.stream i with dataInFlight := some _ } rfl).trans (claimsStand_issue _ _ _ _)
      · exact .refl s
  · exact .refl s

theorem claimsStand_tryWrite (s : State) (i : StreamId) : ClaimsStand s (s.tryWrite i) := by
  unfold State.tryWrite
  dsimp only
  split
  · split
    · exact .refl s
    · split
      · exact (claimsStand_setList s i { s.stream i with dataInFlight := some _ } rfl).trans (claimsStand_issue _ _ _ _)
      · exact .refl s
  · exact .refl s

theorem claimsStand_descriptorAnswered (s : State) (i : StreamId) :
    ClaimsStand s ((s.answered (.descriptor i)).descriptorAnswered i) :=
  (claimsStand_answered s _).trans (claimsStand_setList _ i _ rfl)

theorem claimsStand_dataAnswered (s : State) (i : StreamId) : ClaimsStand s ((s.answered (.data i)).dataAnswered i) :=
  (claimsStand_answered s _).trans (claimsStand_setList _ i _ rfl)

theorem list_takeWrite_length (c : Stream) (n : Nat) : (c.takeWrite n).list.length = c.list.length := by
  simpa [Stream.listed] using congrArg List.length (listed_takeWrite c n)

theorem claimsStand_storeElements (h : StreamsInv s) (shapes : ShapesInv s) (i : StreamId) (n : Nat) :
    ClaimsStand s (s.storeElements i n) := by
  unfold State.storeElements
  dsimp only
  split
  · next may =>
    have opened : (s.stream i).shape ≠ none := fun none => by
      have closed := (shapes i).2 none
      simp [Stream.mayIssue, closed] at may
    obtain ⟨sh, shape⟩ := Option.ne_none_iff_exists'.1 opened
    exact claimsStand_retireFinished s i _ (by rw [list_takeWrite_length]; exact list_le_two h shape)
  · next may => exact claimsStand_setStream s i _ (retirementWaiting_takeWrite _ n (by simpa using may))

/-- The rows of one stream free no place and make no claim beside a free one, but for the serving of a claim. -/
theorem claimsStand_streamActs (h : ClaimsInv s) (acts : StreamActs s t) : ClaimsStand s t := by
  obtain ⟨streams, -, shapes, claims⟩ := h
  cases acts with
  | notifiesBlock i v => exact claimsStand_takeBlockNotify s i v
  | readsDescriptor i sh _ _ _ =>
    exact (claimsStand_setList s i { s.stream i with descriptorInFlight := true } rfl).trans (claimsStand_issue _ _ _ _)
  | answersDescriptor i _ => exact claimsStand_descriptorAnswered s i
  | takesDescriptor i words _ _ _ =>
    refine (claimsStand_descriptorAnswered s i).trans ?_
    unfold State.judgeDescriptor
    split
    · exact claimsStand_setStream _ i _ (retirementWaiting_takeDescriptor _ words)
    · exact claimsStand_faultStream _ i _ _
  | failsDescriptor i n _ => exact (claimsStand_descriptorAnswered s i).trans (claimsStand_faultStream _ i _ _)
  | readsData i => exact claimsStand_tryRead s i
  | answersData i _ => exact claimsStand_dataAnswered s i
  | takesData i samples q _ _ _ _ _ =>
    refine (claimsStand_dataAnswered s i).trans (claimsStand_setList _ i _ ?_)
    unfold Stream.takeSamples
    split <;> rfl
  | failsData i cause _ =>
    refine (claimsStand_dataAnswered s i).trans ?_
    unfold State.dataFailed
    split
    · exact .refl _
    · exact claimsStand_faultStream _ i _ _
  | writesData i => exact claimsStand_tryWrite s i
  | storesData i n _ _ =>
    exact (claimsStand_dataAnswered s i).trans
      (claimsStand_storeElements (streamStable_streamsInv.dataAnswered i streams) (streamStable_shapesInv.dataAnswered i shapes) i n)
  | drains i _ done =>
    obtain ⟨quiescing, -, -, -⟩ := (drainDone_iff _).1 done
    have opened : (s.stream i).shape ≠ none := fun none => by simp [(shapes i).2 none] at quiescing
    obtain ⟨sh, shape⟩ := Option.ne_none_iff_exists'.1 opened
    refine claimsStand_retireFinished s i _ ?_
    have indices := congrArg List.length (ringIndices_finishDrained (s.stream i).list)
    simp only [List.length_map] at indices
    exact indices ▸ list_le_two streams shape
  | servesRetirement i place first =>
    obtain ⟨ready, room⟩ := (placeToHand_iff s).1 place
    obtain ⟨-, -, heads⟩ := claims (by simp [ready]) (by simp [ready]) room
    rw [(waitingStream_eq_none_iff s).2 heads] at first
    cases first

/-! ## Every step -/

/-- The claims on places by themselves: none stands beside a free place while the holding list serves them. -/
def ClaimsClear (s : State) : Prop :=
  s.host.engine ≠ .fault → s.host.engine ≠ .resetting → s.placesInUse < 32 → s.noClaim

theorem claimsClear_of_stand (h : ClaimsClear s) (k : ClaimsStand s t) : ClaimsClear t := by
  intro fault resetting place
  rw [k.engine] at fault resetting
  exact k.claims place (h fault resetting (lt_of_le_of_lt k.places place))

/-- In OFF after a reset there is no claim. -/
theorem noClaim_reset (comp : t.comp = Completion.reset) (proc : t.proc = Processor.reset)
    (streams : t.streams = Vector.replicate 32 Stream.reset) : t.noClaim := by
  refine ⟨by simp [comp, Completion.reset], by simp [proc, Processor.reset], fun i => ?_⟩
  have context : t.stream i = Stream.reset := by simp [State.stream, streams]
  simp [context, Stream.reset, Stream.retirementWaiting]

theorem claimsClear_offWhenQuiet (resetting : s.host.engine = .resetting) : ClaimsClear s.offWhenQuiet := by
  unfold State.offWhenQuiet
  split
  · exact fun _ _ _ => noClaim_reset rfl rfl rfl
  · exact fun _ active => absurd resetting active

/-- A waiting head that is served enters its record (R96). -/
theorem placesInUse_serveRetirement {i : StreamId} (waits : (s.stream i).retirementWaiting = true) :
    (s.serveRetirement i).placesInUse = s.placesInUse + 1 := by
  have reports (e : Entry) (status : BlockStatus) : (s.retireReporting i e status).placesInUse = s.placesInUse + 1 :=
    placesInUse_enter s _
  unfold Stream.retirementWaiting at waits
  unfold State.serveRetirement
  split
  · next list => simp [list] at waits
  · next e rest list =>
    split
    · next unfinished => simp [list, unfinished] at waits
    · dsimp only
      split
      · exact reports _ _
      · split
        · exact reports _ _
        · split
          · exact reports _ _
          · exact reports _ _

/-- With its ring the processor that is served reserves its place (R153). -/
theorem placesInUse_readCommand (ring : s.proc.ring.isSome = true) : s.readCommand.placesInUse = s.placesInUse + 1 := by
  obtain ⟨r, held⟩ := Option.isSome_iff_exists.1 ring
  rw [State.readCommand, held]
  exact placesInUse_reserve s

/-- A place that frees beside claims is handed on: the places in use are as many as before (R169). -/
theorem claimsClear_handOn (ready : s.host.engine = .ready) (ring : s.proc.ring.isSome = true) (last : 31 ≤ s.placesInUse ∨ s.noClaim) : ClaimsClear s.handOn := by
  have full (h : 32 ≤ s.handOn.placesInUse) : ClaimsClear s.handOn := fun _ _ place => absurd place (by omega)
  rcases handOn_cases s with ⟨nothing, e⟩ | ⟨-, place, ⟨lost, e⟩ | ⟨-, waits, e⟩ | ⟨lost, waits, ⟨i, head, e⟩ | ⟨heads, e⟩⟩⟩
  · rw [e]
    exact fun _ _ place => absurd ⟨ready, place⟩ nothing
  · rcases last with many | ⟨none, -⟩
    · refine full ?_
      rw [e]
      exact le_trans (by omega) (placesInUse_enter s (.event (.eventLoss s.comp.lossCount))).ge
    · omega
  · rcases last with many | ⟨-, idle, -⟩
    · refine full ?_
      rw [e, placesInUse_readCommand ring]
      omega
    · exact absurd waits idle
  · rcases last with many | ⟨-, -, heads⟩
    · refine full ?_
      rw [e, placesInUse_serveRetirement (by simpa using List.find?_some head)]
      omega
    · rw [(waitingStream_eq_none_iff s).2 heads] at head
      cases head
  · rw [e]
    exact fun _ _ _ => ⟨lost, waits, (waitingStream_eq_none_iff s).1 heads⟩

theorem claimsStand_takeAcknowledge (s : State) (v : BitVec 16) : ClaimsStand s (s.takeAcknowledge v) := by
  unfold State.takeAcknowledge
  split
  · split
    · exact claimsStand_present s _
    · split
      · exact .refl s
      · split
        · exact claimsStand_present s _
        · exact ⟨rfl, le_rfl, fun _ free => free⟩
  · exact .refl s

theorem claimsStand_takeCommandNotify (s : State) (v : BitVec 16) : ClaimsStand s (s.takeCommandNotify v) := by
  unfold State.takeCommandNotify
  split
  · split
    · exact claimsStand_present s _
    · split
      · exact claimsStand_present s _
      · refine ClaimsStand.trans (t := { s with proc := s.proc.withProducer v.toNat }) ⟨rfl, le_rfl, fun _ free => ?_⟩
          (claimsStand_lookForCommand _)
        obtain ⟨lost, waiting, heads⟩ := free
        refine ⟨lost, fun waits => waiting ?_, heads⟩
        simp only [Processor.withProducer] at waits
        split at waits
        · cases waits
        · exact waits
  · exact .refl s

theorem claimsStand_takeChanges (s : State) (c : Command) (working : Bank) (a : Addr) (count next : Nat) (entries : List Word) :
    ClaimsStand s (s.takeChanges c working a count next entries) := by
  have rescheduled (k : Schedule) : ClaimsStand s { s with sched := k } := claimsStand_of_streams rfl rfl rfl rfl
  unfold State.takeChanges
  split
  · exact (rescheduled _).trans (claimsStand_endHeld _ _ _ _)
  · split
    · exact (rescheduled _).trans (claimsStand_endHeld _ _ _ _)
    · exact (rescheduled _).trans (claimsStand_issue _ _ _ _)

/-- A record written frees one place of those in use (R170). -/
theorem places_recordWritten (c : Completion) :
    c.holding.length + c.reservations ≤ c.recordWritten.holding.length + c.recordWritten.reservations + 1 := by
  simp only [Completion.recordWritten, List.length_tail]
  omega

/-- Every change keeps free places clear of claims: most free no place, the end of a ring write hands its place on, and a claim that a
row serves by itself cannot stand beside a free place. -/
theorem claimsClear_acts (h : ClaimsInv s) (acts : Acts s t) : ClaimsClear t := by
  have stream {u : State} (k : StreamActs s u) : ClaimsStand s u := claimsStand_streamActs h k
  obtain ⟨streams, ringed, shapes, claims⟩ := h
  have stands {u : State} (k : ClaimsStand s u) : ClaimsClear u := claimsClear_of_stand claims k
  have answered (tag : Requester) : ClaimsStand s (s.answered tag) := claimsStand_answered s tag
  have clear (ready : s.host.engine = .ready) (place : s.placesInUse < 32) : s.noClaim := claims (by simp [ready]) (by simp [ready]) place
  cases acts with
  | nothing => exact claims
  | discards tag resetting => exact claimsClear_offWhenQuiet (s := s.answered tag) resetting
  | answers tag _ => exact stands (answered tag)
  | writesHost w engine => exact stands (claimsStand_of_streams engine rfl rfl rfl)
  | loads off => exact fun _ _ place => claims (by simp [off]) (by simp [off]) place
  | faultsAtEnable cause _ => exact fun active => absurd rfl active
  | faults tag cause _ => exact fun active => absurd rfl active
  | resets _ => exact claimsClear_offWhenQuiet rfl
  | hardResets source levels after =>
    cases after
    exact fun _ _ _ => noClaim_reset rfl rfl rfl
  | readies words ring config loading _ => exact fun _ _ place => claims (by simp [loading]) (by simp [loading]) place
  | notifiesCommand v => exact stands (claimsStand_takeCommandNotify s v)
  | acknowledges v => exact stands (claimsStand_takeAcknowledge s v)
  | notifiesNoRing n v => exact stands (claimsStand_present s _)
  | looks => exact stands (claimsStand_lookForCommand s)
  | takes c taking owned =>
    obtain ⟨-, reading, -⟩ := taking
    have taken : ClaimsStand s s.afterTaking := by
      refine ⟨rfl, le_rfl, fun _ ⟨lost, _, heads⟩ => ⟨lost, by simp, heads⟩⟩
    have rings : StreamsInv s.afterTaking := streamStable_streamsInv.answered .commandProcessor streams
    exact stands ((taken.trans (claimsStand_owned rings owned)).trans (claimsStand_lookForCommand _))
  | performsLoad a count basis _ _ _ => exact stands (claimsStand_of_streams rfl rfl rfl rfl)
  | takesChanges c working a count next entries _ _ _ => exact stands ((answered _).trans (claimsStand_takeChanges _ _ _ _ _ _ _))
  | failsLoad c result _ _ _ =>
    exact stands (ClaimsStand.trans (t := { s.answered .scheduleUnit with sched.load := .none }) (claimsStand_of_streams rfl rfl rfl rfl)
      (claimsStand_endHeld _ _ _ _))
  | endsQuery c status _ _ _ => exact stands ((answered _).trans (claimsStand_endHeld _ _ _ _))
  | closes i c _ _ _ _ =>
    have closed : ClaimsStand s ((({ s with freePool := s.freePool + (s.stream i).depth } : State).setStream i Stream.reset).unbindMarkers i) :=
      (claimsStand_setStream s i Stream.reset fun _ => rfl).trans (claimsStand_of_streams rfl rfl rfl rfl)
    exact stands (closed.trans (claimsStand_endHeld _ _ _ _))
  | restarts i c n _ _ _ _ => exact stands ((claimsStand_setStream s i _ fun _ => rfl).trans (claimsStand_endHeld _ _ _ _))
  | writesRing =>
    unfold State.tryRingWrite
    split
    · split
      · exact stands (claimsStand_issue s _ _ _)
      · exact claims
    · exact claims
  | writtenRing ready _ =>
    refine claimsClear_handOn ready (ringed ready) ?_
    by_cases place : s.placesInUse < 32
    · exact .inr (clear ready place)
    · have frees := places_recordWritten s.comp
      simp only [State.placesInUse] at place ⊢
      exact .inl (by omega)
  | servesLoss place lost =>
    obtain ⟨ready, room⟩ := (placeToHand_iff s).1 place
    obtain ⟨none, -⟩ := clear ready room
    omega
  | servesCommand place waiting =>
    obtain ⟨ready, room⟩ := (placeToHand_iff s).1 place
    obtain ⟨-, idle, -⟩ := clear ready room
    exact absurd waiting idle
  | expiresHoldoff _ _ => exact claims
  | link acts => exact stands ((commandBlind_claimsStand s).linkActs ⟨streams, .refl s⟩ acts).2
  | stream acts => exact stands (stream acts)

theorem claimsInv_acts (h : ClaimsInv s) (acts : Acts s t) : ClaimsInv t := by
  have clear := claimsClear_acts h acts
  obtain ⟨streams, ringed, shapes, -⟩ := h
  exact ⟨streamStable_streamsInv.acts streams acts, ringed_acts ringed acts, streamStable_shapesInv.acts shapes acts, clear⟩

end
end Sys2Proof.Machine

/-!
The holding list (R157, R166): its bound of 32 places, the holder of every reservation, and where the long commands are outstanding.
-/
namespace Sys2Proof.Machine

/-- The holding list keeps its bound, and `k` reservations besides those held are for the record being taken. -/
def Counted (k : Nat) (s : State) : Prop := s.placesInUse ≤ 32 ∧ s.comp.reservations = s.reservationsHeld + k

/-- A START is outstanding exactly in WAITING, a STOP in STOPPING alone, and a COMMIT exactly while a swap is armed (R157). -/
def Outstanding (s : State) : Prop :=
  (s.link.start.isSome = true ↔ s.link.state = .waiting)
  ∧ (s.link.stop.isSome = true → s.link.state = .stopping)
  ∧ (s.sched.commit.isSome = true ↔ s.sched.swapArmed = true)

/-- From `s` to `t` the engine state, the link state and the commands outstanding stand; the bound is kept, and each reservation made or
filled has its holder. -/
structure PlacesStand (s t : State) : Prop where
  engine : t.host.engine = s.host.engine
  state : t.link.state = s.link.state
  start : t.link.start = s.link.start
  stop : t.link.stop = s.link.stop
  commit : t.sched.commit = s.sched.commit
  armed : t.sched.swapArmed = s.sched.swapArmed
  bound : s.placesInUse ≤ 32 → t.placesInUse ≤ 32
  count : t.comp.reservations + s.reservationsHeld = s.comp.reservations + t.reservationsHeld

section
variable {s t u : State} {k : Nat}

theorem placesInv_iff :
    PlacesInv s ↔ s.placesInUse ≤ 32 ∧ (s.host.engine ≠ .resetting → Counted 0 s)
      ∧ (s.host.engine ≠ .fault → s.host.engine ≠ .resetting → Outstanding s)
      ∧ (s.host.engine = .resetting → s.link.start = none ∧ s.link.stop = none ∧ s.link.state = .unconfigured) := by
  constructor
  · rintro ⟨bound, count, outstanding, resetting⟩
    exact ⟨bound, fun active => ⟨bound, count active⟩, outstanding, resetting⟩
  · rintro ⟨bound, count, outstanding, resetting⟩
    exact ⟨bound, fun active => (count active).2, outstanding, resetting⟩

/-- In an engine that is neither in FAULT nor in RESETTING. -/
theorem placesInv_of_active (count : Counted 0 s) (outstanding : Outstanding s) (active : s.host.engine ≠ .resetting) : PlacesInv s :=
  placesInv_iff.2 ⟨count.1, fun _ => count, fun _ _ => outstanding, fun resetting => absurd resetting active⟩

theorem placesInv_of_fault (count : Counted 0 s) (fault : s.host.engine = .fault) : PlacesInv s :=
  placesInv_iff.2 ⟨count.1, fun _ => count, fun active => absurd fault active, fun resetting => by simp [fault] at resetting⟩

theorem balanced_of_ready (h : PlacesInv s) (ready : s.host.engine = .ready) : Counted 0 s ∧ Outstanding s := by
  obtain ⟨-, count, outstanding, -⟩ := placesInv_iff.1 h
  exact ⟨count (by simp [ready]), outstanding (by simp [ready]) (by simp [ready])⟩

/-- The processor's own part of the reservations held. -/
theorem reservationsHeld_processor (s : State) : s.reservationsHeld
    = s.proc.state.reservation + (flag s.link.start.isSome + flag s.link.stop.isSome + flag s.sched.commit.isSome) := by
  rw [State.reservationsHeld]
  omega

@[simp] theorem reservation_idle : ProcessorState.idle.reservation = 0 := rfl
@[simp] theorem reservation_waitingPlace : ProcessorState.waitingPlace.reservation = 0 := rfl
@[simp] theorem reservation_reading : ProcessorState.reading.reservation = 1 := rfl
@[simp] theorem reservation_held (c : Command) : (ProcessorState.held c).reservation = 1 := rfl

/-! ## What leaves the commands outstanding alone -/

theorem PlacesStand.counted (h : PlacesStand s t) (count : Counted k s) : Counted k t := by
  obtain ⟨bound, sum⟩ := count
  have moved := h.count
  exact ⟨h.bound bound, by omega⟩

theorem PlacesStand.outstanding (h : PlacesStand s t) (k : Outstanding s) : Outstanding t := by
  unfold Outstanding at k ⊢
  rwa [h.start, h.stop, h.state, h.commit, h.armed]

theorem placesInv_of_stand (h : PlacesInv s) (k : PlacesStand s t) : PlacesInv t := by
  obtain ⟨bound, count, outstanding, resetting⟩ := placesInv_iff.1 h
  rw [← k.engine] at count outstanding resetting
  refine placesInv_iff.2 ⟨k.bound bound, fun a => k.counted (count a), fun a b => k.outstanding (outstanding a b), ?_⟩
  rwa [k.start, k.stop, k.state]

theorem PlacesStand.trans (h : PlacesStand s t) (k : PlacesStand t u) : PlacesStand s u where
  engine := k.engine.trans h.engine
  state := k.state.trans h.state
  start := k.start.trans h.start
  stop := k.stop.trans h.stop
  commit := k.commit.trans h.commit
  armed := k.armed.trans h.armed
  bound b := k.bound (h.bound b)
  count := by
    have first := h.count
    have second := k.count
    omega

/-- Records enter within the bound, and the holders stand. -/
theorem placesStand_of_onlyRecords (engine : t.host.engine = s.host.engine) (proc : t.proc.state = s.proc.state)
    (link : t.link.state = s.link.state ∧ t.link.start = s.link.start ∧ t.link.stop = s.link.stop)
    (sched : t.sched.commit = s.sched.commit ∧ t.sched.swapArmed = s.sched.swapArmed) (records : OnlyRecords s t) :
    PlacesStand s t := by
  obtain ⟨state, start, stop⟩ := link
  obtain ⟨commit, armed⟩ := sched
  obtain ⟨comp, bound⟩ := records
  refine ⟨engine, state, start, stop, commit, armed, bound, ?_⟩
  have reservations : t.comp.reservations = s.comp.reservations := by rw [comp]
  rw [State.reservationsHeld, State.reservationsHeld, reservations, proc, start, stop, commit]

/-- Nothing of the holding list and its holders differs. -/
theorem placesStand_of_eq (host : t.host.engine = s.host.engine) (proc : t.proc.state = s.proc.state) (link : t.link = s.link)
    (sched : t.sched.commit = s.sched.commit ∧ t.sched.swapArmed = s.sched.swapArmed) (comp : t.comp = s.comp) : PlacesStand s t :=
  placesStand_of_onlyRecords host proc (by rw [link]; exact ⟨rfl, rfl, rfl⟩) sched (.of_comp comp)

theorem PlacesStand.refl (s : State) : PlacesStand s s := placesStand_of_eq rfl rfl rfl ⟨rfl, rfl⟩ rfl

theorem placesStand_elsewhere (h : Elsewhere s t) : PlacesStand s t :=
  placesStand_of_onlyRecords (by rw [h.host]) (by rw [h.proc]) (by rw [h.link]; exact ⟨rfl, rfl, rfl⟩)
    (by rw [h.sched]; exact ⟨rfl, rfl⟩) h.records

theorem placesStand_calm (h : LinkCalm s t) : PlacesStand s t := by
  rw [h]
  exact placesStand_of_onlyRecords rfl rfl ⟨rfl, rfl, rfl⟩ ⟨rfl, rfl⟩ (.of_comp rfl)

theorem placesStand_present (s : State) (e : Event) : PlacesStand s (s.present e) := placesStand_elsewhere (.present s e)

theorem placesStand_setStream (s : State) (i : StreamId) (c : Stream) : PlacesStand s (s.setStream i c) :=
  placesStand_elsewhere (.setStream s i c)

theorem placesStand_answered (s : State) (tag : Requester) : PlacesStand s (s.answered tag) := placesStand_elsewhere (.answered s tag)

theorem placesStand_issue (s : State) (tag : Requester) (a : Addr) (x : Transfer) : PlacesStand s (s.issue tag a x) :=
  placesStand_of_eq rfl rfl rfl ⟨rfl, rfl⟩ rfl

/-- The processor's reservation, and the place it takes (R153). -/
theorem placesStand_readCommand (free : s.placesInUse < 32) (unreserved : s.proc.state.reservation = 0) :
    PlacesStand s s.readCommand := by
  unfold State.readCommand
  split
  · exact .refl s
  · refine ⟨rfl, rfl, rfl, rfl, rfl, rfl, fun _ => ?_, ?_⟩
    · exact (placesInUse_reserve s).trans_le (by omega)
    · rw [reservationsHeld_processor, reservationsHeld_processor, unreserved]
      simp only [issue_comp, issue_proc, issue_link, issue_sched, State.reserve, reservation_reading]
      omega

theorem placesStand_lookForCommand (s : State) : PlacesStand s s.lookForCommand := by
  unfold State.lookForCommand State.beginCommand
  split
  · next cond =>
    obtain ⟨-, -, idle, -⟩ := cond
    have unreserved : s.proc.state.reservation = 0 := by rw [idle, reservation_idle]
    split
    · next free => exact placesStand_readCommand (placesInUse_of_freePlace free) unreserved
    · refine ⟨rfl, rfl, rfl, rfl, rfl, rfl, id, ?_⟩
      rw [reservationsHeld_processor, reservationsHeld_processor, unreserved, reservation_waitingPlace]
  · exact .refl s

/-- A command that ends fills the one reservation that the processor holds, or that stands for the record being taken (R156, R158). -/
theorem counted_endCommand (count : Counted k s) (owns : s.proc.state.reservation + k = 1) (c : Command) (status : CommandStatus)
    (result : CommandResult) : Counted 0 (s.endCommand c status result) := by
  obtain ⟨bound, sum⟩ := count
  rw [reservationsHeld_processor] at sum
  refine ⟨(placesInUse_complete s c status result (by omega)).trans_le bound, ?_⟩
  rw [reservationsHeld_processor]
  simp only [State.endCommand, complete_reservations, complete_link, complete_sched, reservation_idle]
  omega

theorem placesInv_endHeld (h : PlacesInv s) (ready : s.host.engine = .ready) {held : Command} (holds : s.proc.state = .held held)
    (c : Command) (status : CommandStatus) (result : CommandResult) : PlacesInv (s.endHeld c status result) := by
  obtain ⟨count, outstanding⟩ := balanced_of_ready h ready
  have ended := counted_endCommand count (by rw [holds]; rfl) c status result
  have balanced : PlacesInv (s.endCommand c status result) :=
    placesInv_of_active ended outstanding (by change s.host.engine ≠ _; simp [ready])
  exact placesInv_of_stand balanced (placesStand_lookForCommand _)

/-! ## The link's commands -/

/-- A command outstanding that completes fills its reservation (R158). -/
theorem counted_complete {held : State} (count : Counted k s) (comp : held.comp = s.comp)
    (holders : held.reservationsHeld + 1 = s.reservationsHeld) (c : Command) (status : CommandStatus) (result : CommandResult) :
    Counted k (held.complete c status result) := by
  obtain ⟨bound, sum⟩ := count
  have filled : 1 ≤ held.comp.reservations := by
    rw [comp]
    omega
  refine ⟨(placesInUse_complete held c status result filled).trans_le (by rw [State.placesInUse, comp]; exact bound), ?_⟩
  change held.comp.reservations - 1 = held.reservationsHeld + k
  rw [comp]
  omega

theorem counted_completeStart (count : Counted k s) (status : CommandStatus) : Counted k (s.completeStart status) := by
  unfold State.completeStart
  split
  · exact count
  · next c outstanding =>
    refine counted_complete (held := { s with link.start := none }) count rfl ?_ c status .none
    simp only [State.reservationsHeld, outstanding, Option.isSome_some, Option.isSome_none, flag, if_true, Bool.false_eq_true, if_false]
    omega

theorem counted_completeStop (count : Counted k s) : Counted k s.completeStop := by
  unfold State.completeStop
  split
  · exact count
  · next c outstanding =>
    refine counted_complete (held := { s with link.stop := none }) count rfl ?_ c .ok .none
    simp only [State.reservationsHeld, outstanding, Option.isSome_some, Option.isSome_none, flag, if_true, Bool.false_eq_true, if_false]
    omega

theorem swap_commit (s : State) : s.swap.sched.commit = s.sched.commit := rfl

theorem counted_swap (count : Counted k s) : Counted k s.swap := by
  unfold Counted State.placesInUse State.reservationsHeld at count ⊢
  rwa [swap_comp, swap_proc, swap_link, swap_commit]

theorem counted_performArmedSwap (count : Counted k s) (first : Option FrameNo) : Counted k (s.performArmedSwap first) := by
  unfold State.performArmedSwap
  split
  · have swapped := counted_swap count
    have commit := swap_commit s
    generalize s.swap = t at swapped commit ⊢
    split
    · exact swapped
    · next c outstanding =>
      refine counted_complete (held := { t with sched.commit := none }) swapped rfl ?_ c .ok _
      simp only [State.reservationsHeld, commit, outstanding, Option.isSome_some, Option.isSome_none, flag, if_true,
        Bool.false_eq_true, if_false]
  · exact count

/-- After an armed swap no COMMIT is outstanding and no swap armed; without one the schedule stands (R77). -/
theorem commit_performArmedSwap (h : s.sched.commit.isSome = true ↔ s.sched.swapArmed = true) (first : Option FrameNo) :
    (s.performArmedSwap first).sched.commit.isSome = true ↔ (s.performArmedSwap first).sched.swapArmed = true := by
  obtain ⟨sched, -⟩ := performArmedSwap_moves s first
  rw [sched]
  split
  · simp [State.scheduleSwapped]
  · exact h

/-- The schedule after an entry to STOPPED is that after the armed swap it performs (R32). -/
theorem enterStopped_sched (s : State) (status : CommandStatus) :
    (s.enterStopped status).sched = (s.performArmedSwap none).sched := by
  have swapped {u : State} (sched : u.sched = s.sched) (ret : u.ret = s.ret) :
      (u.performArmedSwap none).sched = (s.performArmedSwap none).sched := by
    rw [(performArmedSwap_moves u none).1, (performArmedSwap_moves s none).1, State.scheduleSwapped, State.scheduleSwapped, sched, ret]
  unfold State.enterStopped
  dsimp only
  rw [presentLinkDown_frame, completeStop_frame]
  exact swapped (by rw [completeStart_frame]) (by rw [completeStart_frame])

theorem counted_enterStopped (count : Counted k s) (status : CommandStatus) : Counted k (s.enterStopped status) := by
  have stopped : Counted k { s with link.state := .stopped, link.timeout := none, lines.watch := none } := count
  have marked : Counted k (State.markersOff (State.performArmedSwap _ none)) :=
    counted_performArmedSwap (counted_completeStart stopped status) none
  have completed := counted_completeStop marked
  unfold State.enterStopped State.presentLinkDown
  dsimp only
  split
  · exact completed
  · exact completed
  · exact (placesStand_present _ _).counted completed
  · exact completed

/-- In STOPPED nothing but a COMMIT is outstanding, and that while a swap is armed. -/
theorem outstanding_enterStopped (h : s.sched.commit.isSome = true ↔ s.sched.swapArmed = true) (status : CommandStatus) :
    Outstanding (s.enterStopped status) := by
  refine ⟨?_, ?_, ?_⟩
  · simp
  · simp
  · rw [enterStopped_sched]
    exact commit_performArmedSwap h none

/-! ## The link's work -/

/-- The link's work keeps the bound, the holders and the places of the commands outstanding. -/
theorem linkStable_balanced (k : Nat) : LinkStable fun s => Counted k s ∧ Outstanding s where
  present s e h := ⟨(placesStand_present s e).counted h.1, (placesStand_present s e).outstanding h.2⟩
  apart calm h := ⟨(placesStand_calm calm).counted h.1, (placesStand_calm calm).outstanding h.2⟩
  performArmedSwap {s} first h := by
    obtain ⟨count, start, stop, commit⟩ := h
    have link : (s.performArmedSwap first).link = s.link := by rw [performArmedSwap_frame]
    refine ⟨counted_performArmedSwap count first, ?_, ?_, commit_performArmedSwap commit first⟩
    · rw [link]
      exact start
    · rw [link]
      exact stop
  enterStopped status h := ⟨counted_enterStopped h.1 status, outstanding_enterStopped h.2.2.2 status⟩
  faultStop running h := by
    obtain ⟨count, start, stop, commit⟩ := h
    refine ⟨count, ?_, fun _ => rfl, commit⟩
    rw [running] at start
    simpa [State.faultStop] using start
  beginRun {s} _ waiting h := by
    obtain ⟨count, start, stop, commit⟩ := h
    have begun : Counted k { s with link.state := .running, link.timeout := none } := count
    refine ⟨counted_completeStart begun .ok, ?_, ?_, ?_⟩
    · simp
    · simpa [waiting] using stop
    · rw [completeStart_frame]
      exact commit
  outTurn f s i h := by
    have frame := outStreamTurn_frame s f i
    have stand : PlacesStand s (outStreamTurn f s i) := by
      refine placesStand_of_onlyRecords ?_ ?_ ?_ ?_ (onlyRecords_outStreamTurn f s i)
      all_goals rw [frame]
      · exact ⟨rfl, rfl, rfl⟩
      · exact ⟨rfl, rfl⟩
    exact ⟨stand.counted h.1, stand.outstanding h.2⟩
  inTurn b f r words s i h := by
    have frame := inStreamTurn_frame s b f r words i
    have stand : PlacesStand s (inStreamTurn b f r words s i) := by
      refine placesStand_of_onlyRecords ?_ ?_ ?_ ?_ (onlyRecords_inStreamTurn b f r words s i)
      all_goals rw [frame]
      · exact ⟨rfl, rfl, rfl⟩
      · exact ⟨rfl, rfl⟩
    exact ⟨stand.counted h.1, stand.outstanding h.2⟩

/-- Out of READY the rows of the link change the lines alone, or end a transmission, which in FAULT takes the link to STOPPED (R16, R34,
R140). -/
theorem linkActs_of_not_ready (acts : LinkActs s t) (off : s.host.engine ≠ .ready) :
    t = { s with lines := t.lines }
    ∨ s.host.engine ≠ .fault ∧ t = { s with link.transmitting := false }
    ∨ s.host.engine = .fault ∧ t = { s with link := ({ s.link with transmitting := false } : Link).stopInFault } := by
  have untaken (taken : s.takesArrivals = true) : False := by
    simp only [State.takesArrivals, Bool.and_eq_true, decide_eq_true_eq] at taken
    exact off taken.1
  cases acts with
  | startsFrame ready _ _ => exact absurd ready off
  | endsTransmission _ =>
    unfold State.endTransmission
    dsimp only
    split
    · next ready => exact absurd ready off
    · next fault => exact .inr (.inr ⟨fault, rfl⟩)
    · next other => exact .inr (.inl ⟨by simp [other], rfl⟩)
    · next other => exact .inr (.inl ⟨by simp [other], rfl⟩)
    · next other => exact .inr (.inl ⟨by simp [other], rfl⟩)
  | arrives words ragged taken => exact (untaken taken).elim
  | loops words taken _ => exact (untaken taken).elim
  | misses taken => exact (untaken taken).elim
  | stops ready => exact absurd ready off
  | timesOut ready _ => exact absurd ready off
  | changesLevel k e => exact .inl rfl
  | triggers k e => exact .inl rfl
  | selects k e micros =>
    rw [State.selectedEdge, if_neg (show (s.withLevel k e).host.engine ≠ .ready from off)]
    exact .inl rfl
  | takesReport p rest _ =>
    rw [State.takeReport, if_neg (show ({ s with lines.reports := rest } : State).host.engine ≠ .ready from off)]
    exact .inl rfl

/-- In READY the rows of the link do the link's work. -/
theorem LinkStable.linkActs_of_ready {Q : State → Prop} (stable : LinkStable Q) (ready : s.host.engine = .ready) (h : Q s)
    (acts : LinkActs s t) : Q t := by
  cases acts with
  | startsFrame _ _ _ => exact stable.frameStart _ h
  | endsTransmission _ =>
    rw [State.endTransmission, ready]
    exact stable.stopWhenDone (stable.apart rfl h)
  | arrives words ragged _ => exact stable.takeArrival _ _ h
  | loops words _ _ => exact stable.takeArrival _ _ (stable.apart rfl h)
  | misses _ => exact stable.resolveOldestMissing h
  | stops _ => exact stable.stopWhenDone h
  | timesOut _ _ => exact stable.enterStopped _ h
  | changesLevel k e => exact stable.withLevel k e h
  | triggers k e => exact stable.apart rfl (stable.withLevel k e h)
  | selects k e micros => exact stable.selectedEdge k e micros (stable.withLevel k e h)
  | takesReport p rest _ => exact stable.takeReport p (stable.apart rfl h)

/-- In FAULT the link keeps the commands outstanding as they stand (R162). -/
theorem stopInFault_commands (k : Link) : k.stopInFault.start = k.start ∧ k.stopInFault.stop = k.stop := by
  unfold Link.stopInFault
  split <;> exact ⟨rfl, rfl⟩

theorem atFault_commands (k : Link) : k.atFault.start = k.start ∧ k.atFault.stop = k.stop := by
  unfold Link.atFault
  split <;> exact ⟨rfl, rfl⟩

/-- The rows of the link change no engine state. -/
theorem linkActs_engine (acts : LinkActs s t) : t.host.engine = s.host.engine := by
  obtain ⟨-, host, -⟩ := (commandBlind_seat s).linkActs ⟨rfl, rfl, rfl⟩ acts
  rw [host]

theorem placesInv_linkActs (h : PlacesInv s) (acts : LinkActs s t) : PlacesInv t := by
  have engine := linkActs_engine acts
  by_cases ready : s.host.engine = .ready
  · obtain ⟨count, outstanding⟩ := (linkStable_balanced 0).linkActs_of_ready ready (balanced_of_ready h ready) acts
    exact placesInv_of_active count outstanding (by simp [engine, ready])
  · rcases linkActs_of_not_ready acts ready with lines | ⟨-, ended⟩ | ⟨fault, ended⟩
    · exact placesInv_of_stand h (placesStand_calm (lines.trans (by rw [lines])))
    · exact placesInv_of_stand h (placesStand_calm (ended.trans (by rw [ended])))
    · obtain ⟨-, count, -, -⟩ := placesInv_iff.1 h
      refine placesInv_of_fault ?_ (engine.trans fault)
      have before := count (by simp [fault])
      rw [ended]
      obtain ⟨start, stop⟩ := stopInFault_commands { s.link with transmitting := false }
      unfold Counted State.placesInUse State.reservationsHeld at before ⊢
      rwa [start, stop]

/-! ## The owners of the commands -/

/-- The record being taken has its reservation, and the processor is free (R151, R154). -/
theorem balanced_afterTaking (h : PlacesInv s) (taking : s.Taking) : Counted 1 s.afterTaking ∧ Outstanding s.afterTaking := by
  obtain ⟨ready, reading, -⟩ := taking
  obtain ⟨⟨bound, sum⟩, outstanding⟩ := balanced_of_ready h ready
  refine ⟨⟨bound, ?_⟩, outstanding⟩
  rw [reservationsHeld_processor, reading, reservation_reading] at sum
  rw [reservationsHeld_processor, afterTaking_proc_state, afterTaking_link, afterTaking_sched, reservation_idle]
  exact sum.trans (by omega)

/-- The record being taken is held, and its reservation is the processor's (R156). -/
theorem counted_hold (count : Counted 1 s) (idle : s.proc.state = .idle) (c : Command) : Counted 0 (s.hold c) := by
  obtain ⟨bound, sum⟩ := count
  refine ⟨bound, ?_⟩
  rw [reservationsHeld_processor, idle, reservation_idle] at sum
  rw [reservationsHeld_processor]
  simp only [State.hold, reservation_held]
  omega

/-- A START is no more outstanding beside a link state that is not WAITING. -/
theorem start_eq_none (h : Outstanding s) (state : s.link.state ≠ .waiting) : s.link.start = none := by
  obtain ⟨start, -, -⟩ := h
  exact Option.not_isSome_iff_eq_none.1 fun some => state (start.1 some)

theorem stop_eq_none (h : Outstanding s) (state : s.link.state ≠ .stopping) : s.link.stop = none := by
  obtain ⟨-, stop, -⟩ := h
  exact Option.not_isSome_iff_eq_none.1 fun some => state (stop some)

theorem commit_eq_none (h : Outstanding s) (clear : s.sched.swapArmed = false) : s.sched.commit = none := by
  obtain ⟨-, -, commit⟩ := h
  exact Option.not_isSome_iff_eq_none.1 fun some => by simp [clear] at commit; simp [commit] at some

/-- A STOP made outstanding takes the reservation of its record. -/
theorem counted_holdStop (count : Counted 1 s) (none : s.link.stop = none) (c : Command) (state : LinkState) (cause : Option StopCause)
    (timer : Bool) :
    Counted 0 { s with link := { s.link with state := state, stopCause := cause, frameTimer := timer, stop := some c } } := by
  obtain ⟨bound, sum⟩ := count
  refine ⟨bound, ?_⟩
  change s.comp.reservations = _
  rw [sum]
  simp [State.reservationsHeld, none, flag]
  omega

/-- A COMMIT outstanding that is cancelled fills its reservation (R80). -/
theorem counted_cancelOutstanding (count : Counted k s) : Counted k s.cancelOutstanding := by
  unfold State.cancelOutstanding
  split
  · exact count
  · next c outstanding =>
    refine counted_complete (held := { s with sched.commit := none }) count rfl ?_ c _ _
    simp only [State.reservationsHeld, outstanding, Option.isSome_some, Option.isSome_none, flag, if_true, Bool.false_eq_true, if_false]

/-- After a cancellation no COMMIT is outstanding, and the other holders stand. -/
theorem cancelOutstanding_holders (s : State) :
    s.cancelOutstanding.link = s.link ∧ s.cancelOutstanding.proc = s.proc ∧ s.cancelOutstanding.sched.commit = none
    ∧ s.cancelOutstanding.sched.swapArmed = s.sched.swapArmed := by
  unfold State.cancelOutstanding
  split
  · next none => exact ⟨rfl, rfl, none, rfl⟩
  · exact ⟨rfl, rfl, rfl, rfl⟩

/-- Whatever its owner makes of a taken record, its reservation has a holder afterwards or is filled (R156 to R158). -/
theorem balanced_owned (count : Counted 1 s) (outstanding : Outstanding s) (idle : s.proc.state = .idle) {c : Command}
    (owned : Owned c s t) : Counted 0 t ∧ Outstanding t := by
  have stable := linkStable_balanced 1
  have begun := linkStable_balanced 0
  have owns : s.proc.state.reservation + 1 = 1 := by rw [idle]; rfl
  have ends {u : State} (h : Counted 1 u ∧ Outstanding u) (proc : u.proc.state = .idle) (status : CommandStatus) (result : CommandResult) :
      Counted 0 (u.endCommand c status result) ∧ Outstanding (u.endCommand c status result) :=
    ⟨counted_endCommand h.1 (by rw [proc]; rfl) c status result, h.2⟩
  have holds {u : State} (k : PlacesStand s u) (proc : u.proc.state = .idle) : Counted 0 (u.hold c) ∧ Outstanding (u.hold c) :=
    ⟨counted_hold (k.counted count) proc c, k.outstanding outstanding⟩
  have kept {u : State} (k : PlacesStand s u) : Counted 1 u ∧ Outstanding u := ⟨k.counted count, k.outstanding outstanding⟩
  have unstarted := start_eq_none outstanding
  have unstopped := stop_eq_none outstanding
  have uncommitted := commit_eq_none outstanding
  cases owned with
  | ends status result => exact ends ⟨count, outstanding⟩ idle _ _
  | configures k state =>
    have start := unstarted (by rcases state with e | e <;> simp [e])
    have stop := unstopped (by rcases state with e | e <;> simp [e])
    refine ends (u := { s with link := { s.link with config := some k, state := .stopped } }) ⟨count, ?_, ?_, outstanding.2.2⟩ idle _ _
    · simp [start]
    · simp [stop]
  | startsNow state =>
    have start := unstarted (by simp [state])
    have stop := unstopped (by simp [state])
    have accepted : Counted 1 { s.acceptStart with link.state := .running } ∧ Outstanding { s.acceptStart with link.state := .running } :=
      ⟨count, by simp [State.acceptStart, start], by simp [State.acceptStart, stop], outstanding.2.2⟩
    have started := stable.frameStart 0 accepted
    have proc : (State.frameStart { s.acceptStart with link.state := .running } 0).proc.state = .idle := by
      rw [frameStart_frame]
      exact idle
    exact ends started proc .ok .none
  | startsWaiting w timeout state =>
    have start := unstarted (by simp [state])
    have stop := unstopped (by simp [state])
    obtain ⟨bound, sum⟩ := count
    refine ⟨⟨bound, ?_⟩, ?_, ?_, outstanding.2.2⟩
    · change s.comp.reservations = _
      rw [sum]
      simp [State.reservationsHeld, State.startWaiting, State.acceptStart, start, flag]
      omega
    · simp [State.startWaiting]
    · simp [State.startWaiting, State.acceptStart, stop]
  | stopsWaiting state =>
    have held := counted_holdStop count (unstopped (by simp [state])) c s.link.state (some .host) s.link.frameTimer
    exact ⟨counted_enterStopped held .cancelled,
      outstanding_enterStopped (s := { s with link := { s.link with stopCause := some .host, stop := some c } }) outstanding.2.2 .cancelled⟩
  | stopsRunning state =>
    have held := counted_holdStop count (unstopped (by simp [state])) c .stopping (some .host) false
    refine begun.stopWhenDone ⟨held, ?_, fun _ => rfl, outstanding.2.2⟩
    simp [unstarted (by simp [state])]
  | joinsStop state alone =>
    have held := counted_holdStop count alone c s.link.state s.link.stopCause s.link.frameTimer
    exact ⟨held, outstanding.1, fun _ => state, outstanding.2.2⟩
  | opens r i sh marker _ _ _ _ =>
    refine ends (u := State.bindMarker _ i marker) (kept ?_) ?_ _ _
    · cases marker <;> exact placesStand_of_eq rfl rfl rfl ⟨rfl, rfl⟩ rfl
    · cases marker <;> exact idle
  | closes i _ _ => exact holds (placesStand_setStream s i _) idle
  | restarts i n _ _ => exact holds (placesStand_setStream s i _) idle
  | queries i a => exact holds (placesStand_issue s _ _ _) idle
  | holdsLoad a count basis _ _ =>
    exact holds (u := { s with sched.load := .held a count basis }) (placesStand_of_eq rfl rfl rfl ⟨rfl, rfl⟩ rfl) idle
  | performsLoad a count basis _ =>
    exact holds (u := s.performLoad a count basis) (placesStand_of_eq rfl rfl rfl ⟨rfl, rfl⟩ rfl) idle
  | commits result clear _ _ =>
    have swapped := counted_swap count
    have proc := swap_proc s
    have link := swap_link s
    have commit : s.swap.sched.commit = none := (swap_commit s).trans (uncommitted clear)
    have disarmed : s.swap.sched.swapArmed = false := rfl
    generalize s.swap = t at swapped proc link commit disarmed ⊢
    refine ends ⟨swapped, ?_, ?_, by simp [commit, disarmed]⟩ (proc ▸ idle) _ _
    · rw [link]
      exact outstanding.1
    · rw [link]
      exact outstanding.2.1
  | armsSwap clear _ _ =>
    obtain ⟨bound, sum⟩ := count
    refine ⟨⟨bound, ?_⟩, outstanding.1, outstanding.2.1, by simp⟩
    change s.comp.reservations = _
    rw [sum]
    simp [State.reservationsHeld, uncommitted clear, flag]
  | cancels _ =>
    have disarmed : Counted 1 { s with sched.swapArmed := false } := count
    obtain ⟨link, proc, none, clear⟩ := cancelOutstanding_holders { s with sched.swapArmed := false }
    refine ends ⟨counted_cancelOutstanding disarmed, ?_, ?_, by simp [none, clear]⟩ (by rw [proc, idle]) _ _
    · rw [link]
      exact outstanding.1
    · rw [link]
      exact outstanding.2.1
  | selects r result => exact ends (u := s.takeSelects r) (kept (placesStand_of_eq rfl rfl rfl ⟨rfl, rfl⟩ rfl)) idle _ _
  | posts e result => exact ends (kept (placesStand_present s e)) (by rw [present_proc, idle]) _ _
  | armsCorrupt _ => exact ends (u := { s with link := { s.link with corruptOut := true } }) ⟨count, outstanding⟩ idle _ _
  | armsDrop _ => exact ends (u := { s with link := { s.link with dropReturn := true } }) ⟨count, outstanding⟩ idle _ _

/-! ## Every step -/

theorem placesInv_enterFault (h : PlacesInv s) (active : s.host.engine ≠ .resetting) (cause : FaultCause) :
    PlacesInv (s.enterFault cause) := by
  obtain ⟨-, count, -, -⟩ := placesInv_iff.1 h
  have before := count active
  refine placesInv_of_fault ?_ rfl
  obtain ⟨start, stop⟩ := atFault_commands s.link
  unfold Counted State.placesInUse State.reservationsHeld at before ⊢
  simp only [State.enterFault]
  rwa [start, stop]

/-- In OFF after a soft reset nothing is reserved, and the link is as RESETTING left it. -/
theorem placesInv_offWhenQuiet (h : PlacesInv s) (resetting : s.host.engine = .resetting) : PlacesInv s.offWhenQuiet := by
  obtain ⟨-, -, -, quiet⟩ := placesInv_iff.1 h
  obtain ⟨start, stop, state⟩ := quiet resetting
  unfold State.offWhenQuiet
  split
  · refine placesInv_of_active ⟨Nat.zero_le _, ?_⟩ ⟨?_, ?_, ?_⟩ (by simp)
    · simp [State.enterOff, State.reservationsHeld, Completion.reset, Processor.reset, Schedule.reset, ProcessorState.reservation, flag,
        start, stop]
    · simp [State.enterOff, start, state]
    · simp [State.enterOff, stop]
    · simp [State.enterOff, Schedule.reset]
  · exact h

theorem placesInv_enterResetting (h : PlacesInv s) : PlacesInv s.enterResetting := by
  obtain ⟨bound, -⟩ := placesInv_iff.1 h
  exact placesInv_iff.2 ⟨bound, fun active => absurd rfl active, fun _ active => absurd rfl active, fun _ => ⟨rfl, rfl, rfl⟩⟩

theorem placesStand_takeCommandNotify (s : State) (v : BitVec 16) : PlacesStand s (s.takeCommandNotify v) := by
  unfold State.takeCommandNotify
  split
  · split
    · exact placesStand_present s _
    · split
      · exact placesStand_present s _
      · refine PlacesStand.trans (t := { s with proc := s.proc.withProducer v.toNat })
          ⟨rfl, rfl, rfl, rfl, rfl, rfl, id, ?_⟩ (placesStand_lookForCommand _)
        change s.comp.reservations + s.reservationsHeld
          = s.comp.reservations + ({ s with proc := s.proc.withProducer v.toNat } : State).reservationsHeld
        simp only [State.reservationsHeld, Processor.withProducer]
        split
        · next waits => rw [waits.1]; rfl
        · rfl
  · exact .refl s

theorem placesStand_takeAcknowledge (s : State) (v : BitVec 16) : PlacesStand s (s.takeAcknowledge v) := by
  unfold State.takeAcknowledge
  split
  · split
    · exact placesStand_present s _
    · split
      · exact .refl s
      · split
        · exact placesStand_present s _
        · exact ⟨rfl, rfl, rfl, rfl, rfl, rfl, id, rfl⟩
  · exact .refl s

/-- An EVENT_LOSS record enters a free place (R169). -/
theorem placesStand_enterEventLoss (free : s.placesInUse < 32) : PlacesStand s s.enterEventLoss :=
  ⟨rfl, rfl, rfl, rfl, rfl, rfl, fun _ => (placesInUse_enter s (.event (.eventLoss s.comp.lossCount))).trans_le (by omega), rfl⟩

theorem placesStand_handOn (s : State) : PlacesStand s s.handOn := by
  rcases handOn_cases s with ⟨-, e⟩ | ⟨-, free, ⟨-, e⟩ | ⟨-, waits, e⟩ | ⟨-, -, ⟨i, -, e⟩ | ⟨-, e⟩⟩⟩
  · rw [e]
    exact .refl s
  · rw [e]
    exact placesStand_enterEventLoss free
  · rw [e]
    exact placesStand_readCommand free (by rw [waits]; rfl)
  · rw [e]
    exact placesStand_elsewhere (.serveRetirement s i free)
  · rw [e]
    exact .refl s

theorem placesInv_takeChanges (h : PlacesInv s) (ready : s.host.engine = .ready) {c : Command} (holds : s.proc.state = .held c)
    (working : Bank) (a : Addr) (count next : Nat) (entries : List Word) : PlacesInv (s.takeChanges c working a count next entries) := by
  have rescheduled (bank : Bank) (load : Load) : PlacesInv { s with sched.pending := bank, sched.load := load } :=
    placesInv_of_stand h (placesStand_of_eq rfl rfl rfl ⟨rfl, rfl⟩ rfl)
  unfold State.takeChanges
  split
  · exact placesInv_endHeld (rescheduled s.sched.pending .none) ready holds _ _ _
  · split
    · exact placesInv_endHeld (rescheduled _ .none) ready holds _ _ _
    · exact placesInv_of_stand h (placesStand_of_eq rfl rfl rfl ⟨rfl, rfl⟩ rfl)

/-- Every change keeps the bound and the holders. -/
theorem placesInv_acts (h : PlacesInv s) (acts : Acts s t) : PlacesInv t := by
  have stands {u : State} (k : PlacesStand s u) : PlacesInv u := placesInv_of_stand h k
  have answered (tag : Requester) : PlacesInv (s.answered tag) := stands (placesStand_answered s tag)
  cases acts with
  | nothing => exact h
  | discards tag resetting => exact placesInv_offWhenQuiet (answered tag) resetting
  | answers tag _ => exact answered tag
  | writesHost w engine => exact stands (placesStand_of_eq engine rfl rfl ⟨rfl, rfl⟩ rfl)
  | loads off =>
    obtain ⟨-, count, outstanding, -⟩ := placesInv_iff.1 h
    exact placesInv_of_active (count (by simp [off])) (outstanding (by simp [off]) (by simp [off])) (by simp)
  | faultsAtEnable cause off => exact placesInv_enterFault h (by simp [off]) cause
  | faults tag cause active =>
    exact placesInv_enterFault (answered tag) (by rcases active with e | e <;> simp [e]) cause
  | resets _ => exact placesInv_offWhenQuiet (placesInv_enterResetting h) rfl
  | hardResets source levels after =>
    cases after
    refine placesInv_of_active ⟨Nat.zero_le _, rfl⟩ ⟨?_, ?_, ?_⟩ (by simp [State.reset])
    · simp [State.reset, Link.reset]
    · simp [State.reset, Link.reset]
    · simp [State.reset, Schedule.reset]
  | readies words ring config loading _ =>
    obtain ⟨-, count, outstanding, -⟩ := placesInv_iff.1 h
    exact placesInv_of_active (count (by simp [loading])) (outstanding (by simp [loading]) (by simp [loading])) (by simp)
  | notifiesCommand v => exact stands (placesStand_takeCommandNotify s v)
  | acknowledges v => exact stands (placesStand_takeAcknowledge s v)
  | notifiesNoRing n v => exact stands (placesStand_present s _)
  | looks => exact stands (placesStand_lookForCommand s)
  | @takes c u taking owned =>
    obtain ⟨count, outstanding⟩ := balanced_afterTaking h taking
    obtain ⟨ended, done⟩ := balanced_owned count outstanding rfl owned
    obtain ⟨-, host, -⟩ := seatStands_owned owned
    have ready : u.host.engine = .ready := by rw [host]; exact taking.1
    exact placesInv_of_stand (placesInv_of_active ended done (by simp [ready])) (placesStand_lookForCommand _)
  | performsLoad a count basis _ _ _ => exact stands (placesStand_of_eq rfl rfl rfl ⟨rfl, rfl⟩ rfl)
  | takesChanges c working a count next entries ready holds _ => exact placesInv_takeChanges (answered _) ready holds _ _ _ _ _
  | failsLoad c result ready holds _ =>
    exact placesInv_endHeld (s := { s.answered .scheduleUnit with sched.load := .none })
      (stands (placesStand_of_eq rfl rfl rfl ⟨rfl, rfl⟩ rfl)) ready holds _ _ _
  | endsQuery c status ready holds _ => exact placesInv_endHeld (answered _) ready holds _ _ _
  | closes i c ready _ _ holds =>
    exact placesInv_endHeld
      (s := (({ s with freePool := s.freePool + (s.stream i).depth } : State).setStream i Stream.reset).unbindMarkers i)
      (stands (placesStand_of_eq rfl rfl rfl ⟨rfl, rfl⟩ rfl)) ready holds _ _ _
  | restarts i c n ready _ _ holds => exact placesInv_endHeld (stands (placesStand_setStream s i _)) ready holds _ _ _
  | writesRing =>
    unfold State.tryRingWrite
    split
    · split
      · exact stands (placesStand_issue s _ _ _)
      · exact h
    · exact h
  | writtenRing ready _ =>
    have written : PlacesStand s { s.answered .completionUnit with comp := s.comp.recordWritten } := by
      refine ⟨rfl, rfl, rfl, rfl, rfl, rfl, fun bound => le_trans ?_ bound, rfl⟩
      simp only [State.placesInUse, Completion.recordWritten, List.length_tail]
      omega
    exact stands (written.trans (placesStand_handOn _))
  | servesLoss place _ => exact stands (placesStand_enterEventLoss ((placeToHand_iff s).1 place).2)
  | servesCommand place waiting => exact stands (placesStand_readCommand ((placeToHand_iff s).1 place).2 (by rw [waiting]; rfl))
  | expiresHoldoff _ _ => exact stands ⟨rfl, rfl, rfl, rfl, rfl, rfl, id, rfl⟩
  | link acts => exact placesInv_linkActs h acts
  | stream acts => exact stands (placesStand_elsewhere (elsewhere_of_streamActs acts))

/-- Settles O55: every change keeps the holders of places, the claims, and the look of the processor. -/
theorem holdingListKeepsItsBound : Obligations.HoldingListKeepsItsBound :=
  ⟨keptByEveryStep_of_acts (fun _ _ h => h) placesInv_acts, keptByEveryStep_of_acts (fun _ _ h => h) claimsInv_acts,
    keptByEveryStep_of_acts (fun _ _ h => h) postedInv_acts⟩

end
end Sys2Proof.Machine

/-!
The banks (R38, R50, R63, R65, R156): what a bank owes the shapes of its streams, what the changes of the Schedule Unit and of the streams
do to it, who holds the processor, and the statement that every step keeps the banks admissible.
-/
namespace Sys2Proof.Machine

/-- A bank satisfies the placement rules and names no CLOSED stream (R38, R63). -/
def State.admits (s : State) (b : Bank) : Prop :=
  s.bankFits b ∧ ∀ i : StreamId, (s.stream i).state = .closed → b.names i = false

/-- The state of stream `i` is the one that the banks give it (R38, R50). -/
def Schedule.agrees (k : Schedule) (i : StreamId) (c : Stream) : Prop :=
  (c.state = .live → k.active.names i = true)
  ∧ (c.state = .opened → k.active.names i = false)
  ∧ (c.state = .quiescing → c.pendingOperation = some .close → k.active.names i = false ∧ k.pending.names i = false)

/-- What `BanksInv` asks of the banks and of the streams' states, whoever holds the processor. -/
def Placed (s : State) : Prop :=
  (∀ b ∈ s.sched.banks, s.admits b) ∧ (∀ i : StreamId, s.sched.agrees i (s.stream i))
  ∧ s.lowestLacking s.sched.active = none
  ∧ (s.sched.swapArmed = true → s.lowestLacking s.sched.pending = none ∧ s.sched.load = .none)

/-- No command holds the processor by a stream, a LOAD or a QUERY. -/
def Unheld (s : State) : Prop :=
  (∀ i : StreamId, ¬ s.quiescing i) ∧ s.sched.load = .none ∧ s.inFlight .streamTable = false

section
variable {s t u : State} {b : Bank} {c : Stream}

theorem banksInv_iff : BanksInv s ↔ HeldInv s ∧ Placed s ∧ ShapesInv s := by
  have unnamed (i : StreamId) : s.inSchedule i = false ↔ s.sched.active.names i = false ∧ s.sched.pending.names i = false := by
    simp [State.inSchedule]
  constructor
  · rintro ⟨⟨held, closed, live, opened, closing⟩, shapes, fits, complete, armed⟩
    exact ⟨held, ⟨fun b mem => ⟨fits b mem, fun i state => closed i state b mem⟩,
      fun i => ⟨live i, opened i, fun state operation => (unnamed i).1 (closing i state operation)⟩, complete, armed⟩, shapes⟩
  · rintro ⟨held, ⟨admitted, states, complete, armed⟩, shapes⟩
    exact ⟨⟨held, fun i state b mem => (admitted b mem).2 i state, fun i => (states i).1, fun i => (states i).2.1,
      fun i state operation => (unnamed i).2 ((states i).2.2 state operation)⟩, shapes, fun b mem => (admitted b mem).1, complete, armed⟩

/-! ## What a bank owes the shapes of the streams it names -/

/-- The rules of a bank speak of the shapes of its streams alone. -/
theorem bankFits_congr (h : s.bankFits b) (shapes : ∀ i, b.names i = true → (t.stream i).shape = (s.stream i).shape) : t.bankFits b := by
  obtain ⟨placements, pairs, slots⟩ := h
  have named {p : Placement} (mem : p ∈ b) : (t.stream p.stream).shape = (s.stream p.stream).shape :=
    shapes _ ((names_iff b _).2 ⟨p, mem, rfl⟩)
  refine ⟨fun p mem => ?_, pairs.imp_of_mem fun {p q} first second agree => ?_, slots⟩
  · have fits := placements p mem
    unfold State.placementFits at fits ⊢
    rwa [named mem]
  · unfold State.placementsAgree State.streamsCollide at agree ⊢
    rwa [named first, named second]

/-- No stream of a complete bank lacks a channel (R65). -/
theorem lowestLacking_eq_none_iff (s : State) (b : Bank) :
    s.lowestLacking b = none ↔ ∀ i, b.names i = true → s.lacksChannel b i = false := by
  simp [State.lowestLacking, allStreams]

theorem complete_congr (h : s.lowestLacking b = none) (shapes : ∀ i, b.names i = true → (t.stream i).shape = (s.stream i).shape) :
    t.lowestLacking b = none := by
  rw [lowestLacking_eq_none_iff] at h ⊢
  intro i named
  have whole := h i named
  unfold State.lacksChannel at whole ⊢
  rwa [shapes i named]

/-- A bank stays admissible when the streams it names keep their shapes, and none is CLOSED that was not. -/
theorem admits_congr (h : s.admits b) (shapes : ∀ i, b.names i = true → (t.stream i).shape = (s.stream i).shape)
    (closed : ∀ i, (t.stream i).state = .closed → (s.stream i).state = .closed ∨ b.names i = false) : t.admits b :=
  ⟨bankFits_congr h.1 shapes, fun i state => (closed i state).elim (h.2 i) id⟩

/-- The active bank is one of the banks. -/
theorem active_mem_banks (k : Schedule) : k.active ∈ k.banks := by
  unfold Schedule.banks
  split <;> simp

theorem pending_mem_banks (k : Schedule) : k.pending ∈ k.banks := by
  unfold Schedule.banks
  split <;> simp

theorem banks_of_no_load {k : Schedule} (load : k.load = .none) : k.banks = [k.active, k.pending] := by
  rw [Schedule.banks, load]

/-! ## What leaves the banks alone -/

/-- Streams that keep their shapes where a bank names them, in states that agree with the banks, keep the banks placed. -/
theorem placed_of_streams (h : Placed s) (active : t.sched.active = s.sched.active) (pending : t.sched.pending = s.sched.pending)
    (load : t.sched.load = s.sched.load) (armed : t.sched.swapArmed = s.sched.swapArmed)
    (states : ∀ i, s.sched.agrees i (t.stream i))
    (shapes : ∀ i, ∀ b ∈ s.sched.banks, b.names i = true → (t.stream i).shape = (s.stream i).shape)
    (closed : ∀ i, (t.stream i).state = .closed → (s.stream i).state = .closed ∨ ∀ b ∈ s.sched.banks, b.names i = false) : Placed t := by
  obtain ⟨admitted, -, complete, ready⟩ := h
  have banks : t.sched.banks = s.sched.banks := by rw [Schedule.banks, Schedule.banks, active, pending, load]
  refine ⟨fun b mem => ?_, fun i => ?_, ?_, fun a => ?_⟩
  · rw [banks] at mem
    exact admits_congr (admitted b mem) (fun i => shapes i b mem) fun i state => (closed i state).imp_right fun unnamed => unnamed b mem
  · have agree := states i
    unfold Schedule.agrees at agree ⊢
    rwa [active, pending]
  · rw [active]
    exact complete_congr complete fun i => shapes i _ (active_mem_banks _)
  · obtain ⟨whole, none⟩ := ready (armed ▸ a)
    rw [pending, load]
    exact ⟨complete_congr whole fun i => shapes i _ (pending_mem_banks _), none⟩

/-- From `s` to `t` the banks and what the banks are judged by stand. -/
structure BanksStand (s t : State) : Prop where
  active : t.sched.active = s.sched.active
  pending : t.sched.pending = s.sched.pending
  load : t.sched.load = s.sched.load
  armed : t.sched.swapArmed = s.sched.swapArmed
  context : ∀ i : StreamId, (t.stream i).state = (s.stream i).state ∧ (t.stream i).shape = (s.stream i).shape
    ∧ (t.stream i).pendingOperation = (s.stream i).pendingOperation

theorem agrees_congr {k : Schedule} {i : StreamId} {d : Stream} (h : k.agrees i c) (state : d.state = c.state)
    (operation : d.pendingOperation = c.pendingOperation) : k.agrees i d := by
  unfold Schedule.agrees at h ⊢
  rwa [state, operation]

theorem placed_of_stand (h : Placed s) (k : BanksStand s t) : Placed t := by
  refine placed_of_streams h k.active k.pending k.load k.armed (fun i => ?_) (fun i _ _ _ => (k.context i).2.1) fun i state => .inl ?_
  · obtain ⟨state, -, operation⟩ := k.context i
    exact agrees_congr (h.2.1 i) state operation
  · rwa [(k.context i).1] at state

/-- From `s` to `t` no command that holds the processor is begun, and none that is held loses it (R156). -/
structure HeldStand (s t : State) : Prop where
  quiescing : ∀ i : StreamId, t.quiescing i → s.quiescing i
  load : t.sched.load ≠ .none → s.sched.load ≠ .none
  query : t.inFlight .streamTable = true → s.inFlight .streamTable = true
  held : s.isHeld = true → t.isHeld = true

theorem heldInv_of_stand (h : HeldInv s) (k : HeldStand s t) : HeldInv t := by
  obtain ⟨single, stream, loads, query⟩ := h
  have quiet (none : s.inFlight .streamTable = false) : t.inFlight .streamTable = false := by
    rw [Bool.eq_false_iff] at none ⊢
    exact fun f => none (k.query f)
  refine ⟨fun i j a b => single i j (k.quiescing i a) (k.quiescing j b), fun i a => ?_, fun l => ?_, fun f => k.held (query (k.query f))⟩
  · obtain ⟨held, none, unasked⟩ := stream i (k.quiescing i a)
    exact ⟨k.held held, not_not.1 fun l => k.load l none, quiet unasked⟩
  · obtain ⟨held, unasked⟩ := loads (k.load l)
    exact ⟨k.held held, quiet unasked⟩

theorem heldInv_of_unheld (h : Unheld s) : HeldInv s := by
  obtain ⟨streams, load, query⟩ := h
  exact ⟨fun i _ a => absurd a (streams i), fun i a => absurd a (streams i), fun l => absurd load l, fun f => by simp [query] at f⟩

/-- A processor that holds no command leaves none of the three at work (R156). -/
theorem unheld_of_heldInv (h : HeldInv s) (free : s.isHeld = false) : Unheld s := by
  obtain ⟨-, streams, load, query⟩ := h
  refine ⟨fun i a => ?_, ?_, ?_⟩
  · have held := (streams i a).1
    simp [free] at held
  · by_contra l
    have held := (load l).1
    simp [free] at held
  · rw [Bool.eq_false_iff]
    intro f
    have held := query f
    simp [free] at held

/-- The banks, their streams' states and the holder of the processor by themselves. -/
def BanksKept (s : State) : Prop := HeldInv s ∧ Placed s

/-- From `s` to `t` the banks, what they are judged by, and what holds the processor stand. -/
theorem banksKept_of_stand (h : BanksKept s) (banks : BanksStand s t) (query : t.inFlight .streamTable = true → s.inFlight .streamTable = true)
    (held : s.isHeld = true → t.isHeld = true) : BanksKept t := by
  refine ⟨heldInv_of_stand h.1 ⟨fun i a => ?_, by rw [banks.load]; exact id, query, held⟩, placed_of_stand h.2 banks⟩
  unfold State.quiescing at a ⊢
  rwa [(banks.context i).1] at a

/-- Nothing that the banks are judged by differs. -/
theorem banksStand_of_eq (sched : t.sched.active = s.sched.active ∧ t.sched.pending = s.sched.pending ∧ t.sched.load = s.sched.load
    ∧ t.sched.swapArmed = s.sched.swapArmed) (streams : t.streams = s.streams) : BanksStand s t := by
  obtain ⟨active, pending, load, armed⟩ := sched
  exact ⟨active, pending, load, armed, fun i => by rw [stream_congr streams i]; exact ⟨rfl, rfl, rfl⟩⟩

theorem isHeld_of_proc (proc : t.proc.state = s.proc.state) : t.isHeld = s.isHeld := by
  rw [State.isHeld, proc]
  rfl

/-- Streams, banks, processor and Port as they were. -/
theorem banksKept_of_eq (h : BanksKept s) (sched : t.sched.active = s.sched.active ∧ t.sched.pending = s.sched.pending
    ∧ t.sched.load = s.sched.load ∧ t.sched.swapArmed = s.sched.swapArmed) (streams : t.streams = s.streams)
    (port : t.port = s.port) (proc : t.proc.state = s.proc.state) : BanksKept t :=
  banksKept_of_stand h (banksStand_of_eq sched streams) (by rw [inFlight_of_port port]; exact id) (by rw [isHeld_of_proc proc]; exact id)

/-- One stream changes, in state, shape and pending operation as before. -/
theorem banksKept_setStream (h : BanksKept s) (i : StreamId) (c : Stream) (state : c.state = (s.stream i).state)
    (shape : c.shape = (s.stream i).shape) (operation : c.pendingOperation = (s.stream i).pendingOperation) :
    BanksKept (s.setStream i c) := by
  refine banksKept_of_stand h ⟨rfl, rfl, rfl, rfl, fun j => ?_⟩ id id
  rw [stream_setStream]
  split
  · next e => subst e; exact ⟨state, shape, operation⟩
  · exact ⟨rfl, rfl, rfl⟩

/-! ## A stream that changes its state -/

/-- One stream changes its state in agreement with the banks, and its shape only where no bank names it. -/
theorem placed_setStream (h : Placed s) (i : StreamId) (c : Stream) (agrees : s.sched.agrees i c)
    (shape : c.shape = (s.stream i).shape ∨ ∀ b ∈ s.sched.banks, b.names i = false)
    (closed : c.state = .closed → ∀ b ∈ s.sched.banks, b.names i = false) : Placed (s.setStream i c) := by
  refine placed_of_streams h rfl rfl rfl rfl (fun j => ?_) (fun j b mem named => ?_) fun j state => ?_
  · rw [stream_setStream]
    split
    · next e => subst e; exact agrees
    · exact h.2.1 j
  · rw [stream_setStream]
    split
    · next e =>
      subst e
      exact shape.resolve_right fun unnamed => by simp [unnamed b mem] at named
    · rfl
  · rw [stream_setStream] at state
    split at state
    · next e => subst e; exact .inr (closed state)
    · exact .inl state

/-- A stream FAULTED or QUIESCING for a RESTART agrees with any banks (R38). -/
theorem agrees_of_state {k : Schedule} {i : StreamId} (live : c.state ≠ .live) (opened : c.state ≠ .opened)
    (closing : c.state = .quiescing → c.pendingOperation ≠ some .close) : k.agrees i c :=
  ⟨fun e => absurd e live, fun e => absurd e opened, fun e o => absurd o (closing e)⟩

theorem banksKept_faultStream (h : BanksKept s) (i : StreamId) (cause : StreamFault) (n : Nat) : BanksKept (s.faultStream i cause n) := by
  have told {u : State} (hu : BanksKept u) (e : Event) : BanksKept (u.present e) :=
    banksKept_of_eq hu (by simp) (by simp) (by simp) (by simp)
  have faulted : BanksKept (s.setStream i { s.stream i with state := .faulted, faultCause := some cause }) := by
    refine ⟨heldInv_of_stand h.1 ⟨fun j a => ?_, id, id, id⟩, placed_setStream h.2 i _ ?_ (.inl rfl) (by simp)⟩
    · unfold State.quiescing at a ⊢
      rw [stream_setStream] at a
      split at a
      · simp at a
      · exact a
    · exact agrees_of_state (by simp) (by simp) (by simp)
  unfold State.faultStream
  dsimp only
  split
  · exact h
  · exact told faulted _
  · exact told faulted _
  · exact h
  · split
    · exact told (banksKept_setStream h i { s.stream i with faultCause := some cause } rfl rfl rfl) _
    · exact h

/-! ## The swap -/

/-- A swap of a complete pending bank exchanges two admissible banks, and moves each stream to the state that the new active bank gives
it (R39, R79). -/
theorem placed_swap (h : Placed s) (complete : s.lowestLacking s.sched.pending = none) (load : s.sched.load = .none) :
    Placed s.swap := by
  obtain ⟨admitted, states, -, -⟩ := h
  have stream (i : StreamId) : s.swap.stream i = (s.stream i).moved (s.sched.pending.names i) := by
    rw [stream_swap, moveAtSwap_eq_moved]
  have moved (c : Stream) (named : Bool) : (c.moved named).shape = c.shape ∧ ((c.moved named).state = .closed → c.state = .closed) := by
    unfold Stream.moved
    split <;> try exact ⟨rfl, id⟩
    all_goals split <;> simp_all
  have shapes (i : StreamId) : (s.swap.stream i).shape = (s.stream i).shape := by rw [stream]; exact (moved _ _).1
  have closed (i : StreamId) (e : (s.swap.stream i).state = .closed) : (s.stream i).state = .closed := by
    rw [stream] at e
    exact (moved _ _).2 e
  have active : s.swap.sched.active = s.sched.pending := rfl
  have pending : s.swap.sched.pending = s.sched.active := rfl
  have disarmed : s.swap.sched.swapArmed = false := rfl
  have unloaded : s.swap.sched.load = .none := load
  generalize s.swap = t at *
  refine ⟨fun b mem => ?_, fun i => ?_, ?_, fun armed => by simp [disarmed] at armed⟩
  · have mem : b ∈ s.sched.banks := by
      rw [banks_of_no_load unloaded, active, pending] at mem
      rw [banks_of_no_load load]
      simpa [or_comm] using mem
    exact admits_congr (admitted b mem) (fun i _ => shapes i) fun i e => .inl (closed i e)
  · obtain ⟨live, opened, closing⟩ := states i
    unfold Schedule.agrees
    rw [stream, active, pending]
    unfold Stream.moved
    split
    · next state => exact ⟨by simp [state], by simp [state], by simp [state]⟩
    · next state =>
      split
      · next named => exact ⟨fun _ => named, by simp, by simp⟩
      · next unnamed => exact ⟨by simp [state], fun _ => by simpa using unnamed, by simp [state]⟩
    · next state =>
      split
      · next named => exact ⟨fun _ => named, by simp [state], by simp [state]⟩
      · next unnamed => exact ⟨by simp, fun _ => by simpa using unnamed, by simp⟩
    · next state => exact ⟨by simp [state], by simp [state], by simp [state]⟩
    · next state => exact ⟨by simp [state], by simp [state], fun e o => (closing e o).symm⟩
  · rw [active]
    exact complete_congr complete fun i _ => shapes i

end
end Sys2Proof.Machine

/-!
The banks under the rows (R69, R70, R79, R156): a change list keeps its working copy admissible, each owner of a taken record holds the
processor for at most one purpose, and every step keeps the banks.
-/
namespace Sys2Proof.Machine

section
variable {s t u : State} {b : Bank} {c : Stream}

/-! ## Change lists -/

/-- A placement added joins the others, or was there already. -/
theorem insert_perm_or_eq (p : Placement) (b : Bank) : (Bank.insert p b).Perm (p :: b) ∨ Bank.insert p b = b := by
  induction b with
  | nil => exact .inl (.refl _)
  | cons q rest ih =>
    unfold Bank.insert
    split
    · exact .inl (.refl _)
    · split
      · exact .inr rfl
      · rcases ih with perm | same
        · exact .inl ((perm.cons q).trans (.swap p q rest))
        · exact .inr (by rw [same])

/-- Two streams collide whichever is named first (R64). -/
theorem streamsCollide_comm (s : State) (i j : StreamId) : s.streamsCollide i j = s.streamsCollide j i := by
  unfold State.streamsCollide
  cases (s.stream i).shape <;> cases (s.stream j).shape <;> try rfl
  next x y =>
    simp only [collide, Nat.min_comm x.period y.period]
    exact decide_eq_decide.2 eq_comm

theorem placementsAgree_symm (s : State) {p q : Placement} (h : s.placementsAgree p q) : s.placementsAgree q p := by
  obtain ⟨different, apart⟩ := h
  exact ⟨different.symm, fun lane slot => by rw [streamsCollide_comm]; exact apart lane.symm slot.symm⟩

/-- The rules do not depend on the order of a bank's placements. -/
theorem bankFits_perm {d : Bank} (h : s.bankFits b) (perm : d.Perm b) : s.bankFits d := by
  obtain ⟨placements, pairs, slots⟩ := h
  refine ⟨fun p mem => placements p (perm.mem_iff.1 mem), (perm.pairwise_iff fun agree => placementsAgree_symm s agree).2 pairs, fun lane slot => ?_⟩
  exact (perm.filter _).length_eq.trans_le (slots lane slot)

/-- A PLACE that passes its checks leaves an admissible bank (R70). -/
theorem admits_place {p : Placement} (h : s.admits b) (opened : (s.stream p.stream).state ≠ .closed) {sh : Shape}
    (shape : (s.stream p.stream).shape = some sh) {d : Bank} (applied : s.placeChecked b p sh = .applied d) : s.admits d := by
  unfold State.placeChecked at applied
  split at applied
  · cases applied
  · next lane =>
    split at applied
    · cases applied
    · next channel =>
      split at applied
      · cases applied
      · next single =>
        split at applied
        · cases applied
        · next room =>
          split at applied
          · cases applied
          · next apart =>
            cases applied
            rcases insert_perm_or_eq p b with perm | same
            case inr => rwa [same]
            obtain ⟨⟨placements, pairs, slots⟩, unnamed⟩ := h
            have fits : s.bankFits (p :: b) := by
              refine ⟨fun q mem => ?_, List.pairwise_cons.2 ⟨fun q mem => ⟨?_, fun sameLane sameSlot => ?_⟩, pairs⟩, fun l k => ?_⟩
              · rcases List.mem_cons.1 mem with rfl | old
                · simp only [State.placementFits, shape]
                  exact ⟨not_not.1 lane, not_le.1 channel⟩
                · exact placements q old
              · rintro e
                obtain ⟨stream, placed⟩ := Prod.mk.injEq _ _ _ _ ▸ e
                exact single (List.any_eq_true.2 ⟨q, mem, by simp [stream, placed]⟩)
              · have free := List.find?_eq_none.1 apart q.stream (by simp [allStreams])
                simp only [Bool.and_eq_true, not_and, Bool.not_eq_true] at free
                refine free (List.any_eq_true.2 ⟨q, List.mem_filter.2 ⟨mem, ?_⟩, by simp⟩)
                simp [sameLane, sameSlot]
              · unfold Bank.onSlot
                rw [List.filter_cons]
                split
                · next here =>
                  obtain ⟨rfl, rfl⟩ := of_decide_eq_true here
                  exact Nat.lt_of_not_le room
                · exact slots l k
            refine ⟨bankFits_perm fits perm, fun i closed => ?_⟩
            rw [Bool.eq_false_iff, ne_eq, names_iff]
            rintro ⟨q, mem, rfl⟩
            rcases List.mem_cons.1 (perm.mem_iff.1 mem) with rfl | old
            · exact opened closed
            · have none := unnamed q.stream closed
              rw [Bool.eq_false_iff, ne_eq, names_iff] at none
              exact none ⟨q, old, rfl⟩

/-- A bank with placements removed is admissible when it was with them (R71). -/
theorem admits_filter (h : s.admits b) (keep : Placement → Bool) : s.admits (b.filter keep) := by
  obtain ⟨⟨placements, pairs, slots⟩, unnamed⟩ := h
  refine ⟨⟨fun p mem => placements p (List.mem_filter.1 mem).1, pairs.filter _, fun lane slot => ?_⟩, fun i closed => ?_⟩
  · exact le_trans (List.Sublist.filter _ List.filter_sublist).length_le (slots lane slot)
  · have none := unnamed i closed
    rw [Bool.eq_false_iff, ne_eq, names_iff] at none ⊢
    rintro ⟨p, mem, named⟩
    exact none ⟨p, (List.mem_filter.1 mem).1, named⟩

theorem admits_applyChange (h : s.admits b) {w : Word} {d : Bank} (applied : s.applyChange b w = .applied d) : s.admits d := by
  unfold State.applyChange at applied
  split at applied
  · cases applied
  · next p _ =>
    split at applied
    · unfold State.placeChange at applied
      split at applied
      · cases applied
      · next sh shape =>
        split at applied
        · cases applied
        · next opened => exact admits_place h opened shape applied
    · split at applied
      · unfold clearChange at applied
        split at applied
        · cases applied
          exact admits_filter h _
        · cases applied
      · cases applied

/-- The changes that a read applies leave an admissible working copy (R69). -/
theorem admits_applyChanges {d : Bank} (entries : List Word) :
    ∀ (n : Nat) {b : Bank}, s.admits b → s.applyChanges entries n b = .applied d → s.admits d := by
  induction entries with
  | nil =>
    intro n b h applied
    cases applied
    exact h
  | cons w rest ih =>
    intro n b h applied
    unfold State.applyChanges at applied
    split at applied
    · next next first => exact ih (n + 1) (admits_applyChange h first) applied
    · cases applied

theorem admits_empty (s : State) : s.admits [] := ⟨⟨by simp, by simp, by simp [Bank.onSlot]⟩, fun _ _ => rfl⟩

/-- The bank that a LOAD starts from is admissible (R69). -/
theorem admits_basisBank (h : Placed s) (basis : Basis) : s.admits (s.basisBank basis) := by
  obtain ⟨admitted, -⟩ := h
  cases basis with
  | empty => exact admits_empty s
  | active => exact admitted _ (active_mem_banks _)
  | pending => exact admitted _ (pending_mem_banks _)

/-! ## Changes of the schedule -/

/-- The banks change among admissible ones, with the active bank and the streams as they were. -/
theorem placed_of_banks (h : Placed s) (streams : t.streams = s.streams) (active : t.sched.active = s.sched.active)
    (admitted : ∀ b ∈ t.sched.banks, s.admits b) (agree : ∀ i, t.sched.agrees i (s.stream i))
    (armed : t.sched.swapArmed = true → s.lowestLacking t.sched.pending = none ∧ t.sched.load = .none) : Placed t := by
  obtain ⟨-, -, complete, -⟩ := h
  have same (i : StreamId) : t.stream i = s.stream i := stream_congr streams i
  refine ⟨fun b mem => ?_, fun i => ?_, ?_, fun a => ?_⟩
  · exact admits_congr (admitted b mem) (fun i _ => by rw [same]) fun i state => .inl (by rwa [same] at state)
  · rw [same]
    exact agree i
  · rw [active]
    exact complete_congr complete fun i _ => by rw [same]
  · obtain ⟨whole, none⟩ := armed a
    exact ⟨complete_congr whole fun i _ => by rw [same], none⟩

/-- A LOAD held or ended leaves the two banks. -/
theorem placed_withoutCopy (h : Placed s) (streams : t.streams = s.streams) (active : t.sched.active = s.sched.active)
    (pending : t.sched.pending = s.sched.pending) (armed : t.sched.swapArmed = true → s.sched.swapArmed = true ∧ t.sched.load = .none)
    (banks : t.sched.banks = [t.sched.active, t.sched.pending]) : Placed t := by
  obtain ⟨admitted, states, -, ready⟩ := id h
  refine placed_of_banks h streams active (fun b mem => ?_) (fun i => ?_) fun a => ?_
  · rw [banks, active, pending] at mem
    rcases List.mem_cons.1 mem with rfl | mem
    · exact admitted _ (active_mem_banks _)
    · rw [List.mem_singleton.1 mem]
      exact admitted _ (pending_mem_banks _)
  · have agree := states i
    unfold Schedule.agrees at agree ⊢
    rwa [active, pending]
  · obtain ⟨swap, none⟩ := armed a
    rw [pending]
    exact ⟨(ready swap).1, none⟩

/-- A LOAD that is performed has an admissible working copy beside the two banks. -/
theorem placed_performing (h : Placed s) (clear : s.sched.swapArmed = false) {working : Bank} (admitted : s.admits working)
    (streams : t.streams = s.streams) {a : Addr} {count next : Nat}
    (sched : t.sched = { s.sched with load := .performing working a count next }) : Placed t := by
  obtain ⟨banks, states, -, -⟩ := id h
  refine placed_of_banks h streams (by rw [sched]) (fun b mem => ?_) (fun i => ?_) fun armed => ?_
  · rw [sched] at mem
    rcases List.mem_cons.1 mem with rfl | mem
    · exact banks _ (active_mem_banks _)
    · rcases List.mem_cons.1 mem with rfl | mem
      · exact banks _ (pending_mem_banks _)
      · rw [List.mem_singleton.1 mem]
        exact admitted
  · rw [sched]
    exact states i
  · rw [sched] at armed
    simp [clear] at armed

/-- Streams that keep their states, shapes and pending operations, with schedule, Port and processor as they were. -/
theorem banksKept_of_context (h : BanksKept s) (sched : t.sched = s.sched) (port : t.port = s.port) (proc : t.proc = s.proc)
    (context : ∀ i : StreamId, (t.stream i).state = (s.stream i).state ∧ (t.stream i).shape = (s.stream i).shape
      ∧ (t.stream i).pendingOperation = (s.stream i).pendingOperation) : BanksKept t :=
  banksKept_of_stand h ⟨by rw [sched], by rw [sched], by rw [sched], by rw [sched], context⟩
    (by rw [inFlight_of_port port]; exact id) (by rw [isHeld_of_proc (by rw [proc])]; exact id)

/-! ## The link's work -/

theorem commandBlind_banksKept : CommandBlind BanksKept where
  present s e h := banksKept_of_eq h (by simp) (by simp) (by simp) (by simp)
  complete s c status result h := banksKept_of_eq h ⟨rfl, rfl, rfl, rfl⟩ rfl rfl rfl
  apart k h := banksKept_of_eq h (by rw [k.sched]; exact ⟨rfl, rfl, rfl, rfl⟩) k.streams k.port (by rw [k.proc])
  swap s armed h := by
    obtain ⟨held, placed⟩ := h
    obtain ⟨-, -, -, ready⟩ := id placed
    obtain ⟨complete, load⟩ := ready armed
    refine ⟨heldInv_of_stand held ⟨fun i a => ?_, id, ?_, ?_⟩, placed_swap placed complete load⟩
    · unfold State.quiescing at a ⊢
      rw [stream_swap, moveAtSwap_eq_moved] at a
      unfold Stream.moved at a
      split at a <;> try split at a
      all_goals simp_all
    · rw [inFlight_of_port (swap_port s)]
      exact id
    · rw [isHeld_of_proc (by rw [swap_proc])]
      exact id
  outTurn f s i h := by
    have frame := outStreamTurn_frame s f i
    refine banksKept_of_context h (by rw [frame]) (by rw [frame]) (by rw [frame]) fun j => ?_
    rw [stream_outStreamTurn]
    exact ⟨rfl, rfl, rfl⟩
  inTurn b f r words s i h := by
    have frame := inStreamTurn_frame s b f r words i
    refine banksKept_of_context h (by rw [frame]) (by rw [frame]) (by rw [frame]) fun j => ?_
    rw [stream_inStreamTurn]
    exact ⟨rfl, rfl, rfl⟩

/-! ## The processor -/

theorem isHeld_of_idle (idle : s.proc.state = .idle) : s.isHeld = false := by rw [State.isHeld, idle]

theorem banksKept_answered (h : BanksKept s) (tag : Requester) : BanksKept (s.answered tag) := by
  refine banksKept_of_stand h ⟨rfl, rfl, rfl, rfl, fun i => ⟨rfl, rfl, rfl⟩⟩ (fun f => ?_) id
  obtain ⟨r, mem, name⟩ := (inFlight_iff _ _).1 f
  exact (inFlight_iff _ _).2 ⟨r, (List.mem_filter.1 mem).1, name⟩

/-- A request of another block. -/
theorem banksKept_issue (h : BanksKept s) {tag : Requester} (other : tag ≠ .streamTable) (a : Addr) (x : Transfer) :
    BanksKept (s.issue tag a x) := by
  refine banksKept_of_stand h ⟨rfl, rfl, rfl, rfl, fun i => ⟨rfl, rfl, rfl⟩⟩ (fun f => ?_) id
  rw [inFlight_issue] at f
  simpa [other] using f

/-- A processor that is free for a record takes its read (R153). -/
theorem banksKept_readCommand (h : BanksKept s) (free : s.isHeld = false) : BanksKept s.readCommand := by
  unfold State.readCommand
  split
  · exact h
  · have reserved : BanksKept ({ s.reserve with proc.state := .reading } : State) :=
      banksKept_of_stand h ⟨rfl, rfl, rfl, rfl, fun i => ⟨rfl, rfl, rfl⟩⟩ id fun held => by simp [free] at held
    exact banksKept_issue reserved (by simp) _ _

theorem banksKept_lookForCommand (h : BanksKept s) : BanksKept s.lookForCommand := by
  unfold State.lookForCommand State.beginCommand
  split
  · next cond =>
    obtain ⟨-, -, idle, -⟩ := cond
    have free := isHeld_of_idle idle
    split
    · exact banksKept_readCommand h free
    · exact banksKept_of_stand h ⟨rfl, rfl, rfl, rfl, fun i => ⟨rfl, rfl, rfl⟩⟩ id fun held => by simp [free] at held
  · exact h

/-- A command that ends at once leaves an idle processor idle. -/
theorem banksKept_endCommand (h : BanksKept s) (idle : s.proc.state = .idle) (c : Command) (status : CommandStatus)
    (result : CommandResult) : BanksKept (s.endCommand c status result) :=
  banksKept_of_eq h ⟨rfl, rfl, rfl, rfl⟩ rfl rfl idle.symm

/-- A held command ends when its stream, its LOAD or its QUERY is done with (R156). -/
theorem banksKept_endHeld (placed : Placed s) (unheld : Unheld s) (c : Command) (status : CommandStatus) (result : CommandResult) :
    BanksKept (s.endHeld c status result) := by
  have ended : BanksKept (s.endCommand c status result) :=
    ⟨heldInv_of_unheld unheld, placed_of_stand placed ⟨rfl, rfl, rfl, rfl, fun i => ⟨rfl, rfl, rfl⟩⟩⟩
  exact banksKept_lookForCommand ended

/-! ## What a held command holds -/

/-- With a LOAD at work no stream quiesces and no QUERY writes (R156). -/
theorem alone_of_load (h : HeldInv s) (load : s.sched.load ≠ .none) :
    (∀ i, ¬ s.quiescing i) ∧ s.inFlight .streamTable = false := by
  obtain ⟨-, streams, loads, -⟩ := h
  exact ⟨fun i a => load (streams i a).2.1, (loads load).2⟩

/-- With a QUERY's write in flight no stream quiesces and no LOAD is at work (R156). -/
theorem alone_of_query (h : HeldInv s) (query : s.inFlight .streamTable = true) : (∀ i, ¬ s.quiescing i) ∧ s.sched.load = .none := by
  obtain ⟨-, streams, loads, -⟩ := h
  refine ⟨fun i a => ?_, ?_⟩
  · have none := (streams i a).2.2
    simp [query] at none
  · by_contra l
    have none := (loads l).2
    simp [query] at none

/-- While a LOAD is at work no swap is armed (R68). -/
theorem disarmed_of_load (h : Placed s) (load : s.sched.load ≠ .none) : s.sched.swapArmed = false := by
  obtain ⟨-, -, -, ready⟩ := h
  by_contra armed
  exact load (ready (by simpa using armed)).2

/-- A LOAD ended by a failure leaves the two banks, and the processor free (R72). -/
theorem banksKept_endLoad (h : BanksKept s) (load : s.sched.load ≠ .none) (c : Command) (status : CommandStatus) (result : CommandResult) :
    BanksKept (s.endLoad c status result) := by
  obtain ⟨held, placed⟩ := h
  obtain ⟨streams, query⟩ := alone_of_load held load
  have disarmed := disarmed_of_load placed load
  have ended : Placed { s with sched.load := .none } :=
    placed_withoutCopy placed rfl rfl rfl (fun a => by simp [disarmed] at a) rfl
  exact banksKept_endHeld ended ⟨streams, rfl, query⟩ c status result

theorem banksKept_takeChanges (h : BanksKept s) {working : Bank} {a : Addr} {count next : Nat}
    (load : s.sched.load = .performing working a count next) (c : Command) (entries : List Word) :
    BanksKept (s.takeChanges c working a count next entries) := by
  have active : s.sched.load ≠ .none := by simp [load]
  obtain ⟨held, placed⟩ := id h
  obtain ⟨admitted, states, -, -⟩ := id placed
  obtain ⟨streams, query⟩ := alone_of_load held active
  have disarmed := disarmed_of_load placed active
  have copy : s.admits working := admitted working (by rw [Schedule.banks, load]; simp)
  unfold State.takeChanges
  split
  · exact banksKept_endLoad h active _ _ _
  · next done applied =>
    have changed := admits_applyChanges entries next copy applied
    split
    · have taken : Placed { s with sched.pending := done, sched.load := .none } := by
        refine placed_of_banks placed rfl rfl (fun b mem => ?_) (fun i => ?_) fun armed => by simp [disarmed] at armed
        · rcases List.mem_cons.1 mem with rfl | mem
          · exact admitted _ (active_mem_banks _)
          · rw [List.mem_singleton.1 mem]
            exact changed
        · obtain ⟨live, opened, -⟩ := states i
          exact ⟨live, opened, fun state => absurd state (streams i)⟩
      exact banksKept_endHeld taken ⟨streams, rfl, query⟩ c .ok _
    · have reading : BanksKept { s with sched.load := .performing done a count (next + entries.length) } :=
        ⟨heldInv_of_stand held ⟨fun _ => id, fun _ => active, id, id⟩, placed_performing placed disarmed changed rfl rfl⟩
      exact banksKept_issue reading (by simp) _ _

/-! ## The owners of the commands -/

/-- A stream begins to quiesce while nothing else holds the processor (R52, R156). -/
theorem banksKept_beginQuiesce (unheld : Unheld s) (placed : Placed s) (c : Command) (i : StreamId) (operation : PendingOperation)
    (unnamed : operation = .close → s.inSchedule i = false) : BanksKept (s.beginQuiesce c i operation) := by
  obtain ⟨streams, load, query⟩ := unheld
  have only (j : StreamId) (a : (s.beginQuiesce c i operation).quiescing j) : j = i := by
    by_contra other
    refine streams j ?_
    unfold State.quiescing at a ⊢
    rwa [State.beginQuiesce, State.hold, show State.stream { s.setStream i ((s.stream i).quiesce operation) with proc.state := .held c } j
      = (s.setStream i ((s.stream i).quiesce operation)).stream j from rfl, stream_setStream_of_ne _ _ other] at a
  have quiesced : Placed (s.setStream i ((s.stream i).quiesce operation)) := by
    refine placed_setStream placed i _ ⟨by simp [Stream.quiesce], by simp [Stream.quiesce], fun _ close => ?_⟩ (.inl rfl)
      (by simp [Stream.quiesce])
    have none := unnamed (Option.some.inj close)
    simpa [State.inSchedule] using none
  refine ⟨⟨fun j k a b => (only j a).trans (only k b).symm, fun j a => ⟨rfl, load, query⟩, fun l => absurd load l, fun _ => rfl⟩, ?_⟩
  exact placed_of_stand quiesced ⟨rfl, rfl, rfl, rfl, fun j => ⟨rfl, rfl, rfl⟩⟩

/-- A LOAD is begun while nothing else holds the processor (R68, R156). -/
theorem heldInv_load (unheld : Unheld s) (streams : t.streams = s.streams) (query : t.inFlight .streamTable = s.inFlight .streamTable)
    (held : t.isHeld = true) : HeldInv t := by
  obtain ⟨quiet, -, unasked⟩ := unheld
  have still (i : StreamId) : ¬ t.quiescing i := by
    unfold State.quiescing
    rw [stream_congr streams i]
    exact quiet i
  exact ⟨fun i _ a => absurd a (still i), fun i a => absurd a (still i), fun _ => ⟨held, query.trans unasked⟩, fun _ => held⟩

/-- A newly opened stream is one that no bank names (R38, R45). -/
theorem banksKept_openStream (unheld : Unheld s) (placed : Placed s) (i : StreamId) (sh : Shape) (closed : (s.stream i).state = .closed) :
    BanksKept (s.setStream i (Stream.openAs sh)) := by
  obtain ⟨streams, load, query⟩ := unheld
  have unnamed : ∀ b ∈ s.sched.banks, b.names i = false := fun b mem => (placed.1 b mem).2 i closed
  refine ⟨heldInv_of_unheld ⟨fun j a => ?_, load, query⟩, placed_setStream placed i _ ?_ (.inr unnamed) (by simp [Stream.openAs])⟩
  · unfold State.quiescing at a
    rw [stream_setStream] at a
    split at a
    · simp [Stream.openAs] at a
    · exact streams j a
  · exact ⟨by simp [Stream.openAs], fun _ => unnamed _ (active_mem_banks _), by simp [Stream.openAs]⟩

/-- Whatever its owner makes of a taken record, the banks stay admissible and at most one thing holds the processor. -/
theorem banksKept_owned (h : BanksKept s) (idle : s.proc.state = .idle) {c : Command} (owned : Owned c s t) : BanksKept t := by
  have blind := commandBlind_banksKept
  have unheld := unheld_of_heldInv h.1 (isHeld_of_idle idle)
  obtain ⟨held, placed⟩ := id h
  obtain ⟨streams, load, query⟩ := id unheld
  have ends {u : State} (hu : BanksKept u) (proc : u.proc.state = .idle) (status : CommandStatus) (result : CommandResult) :
      BanksKept (u.endCommand c status result) := banksKept_endCommand hu proc c status result
  have relinked (k : Link) : BanksKept { s with link := k } := banksKept_of_eq h ⟨rfl, rfl, rfl, rfl⟩ rfl rfl rfl
  cases owned with
  | ends status result => exact ends h idle _ _
  | configures k _ => exact ends (relinked _) idle .ok .none
  | startsNow _ =>
    have started : BanksKept (State.frameStart { s.acceptStart with link.state := .running } 0) := blind.startedNow h
    have proc : (State.frameStart { s.acceptStart with link.state := .running } 0).proc.state = .idle := by
      rw [frameStart_frame]
      exact idle
    exact ends started proc .ok .none
  | startsWaiting w timeout _ => exact banksKept_of_eq h ⟨rfl, rfl, rfl, rfl⟩ rfl rfl rfl
  | stopsWaiting _ => exact blind.enterStopped _ (relinked _)
  | stopsRunning _ => exact blind.linkStable.stopWhenDone (relinked _)
  | joinsStop _ _ => exact relinked _
  | opens r i sh marker _ closed _ _ =>
    have opened := banksKept_openStream unheld placed i sh closed
    have bound : BanksKept ((({ s with freePool := s.freePool - sh.depth } : State).setStream i (Stream.openAs sh)).bindMarker i marker) := by
      cases marker with
      | none => exact banksKept_of_eq opened ⟨rfl, rfl, rfl, rfl⟩ rfl rfl rfl
      | some m => exact banksKept_of_eq opened ⟨rfl, rfl, rfl, rfl⟩ rfl rfl rfl
    exact ends bound (by cases marker <;> exact idle) _ _
  | closes i _ unnamed => exact banksKept_beginQuiesce unheld placed c i .close fun _ => unnamed
  | restarts i n _ _ => exact banksKept_beginQuiesce unheld placed c i (.restart n) (by simp)
  | queries i a =>
    refine ⟨⟨fun j _ q => absurd q (streams j), fun j q => absurd q (streams j), fun l => absurd load l, fun _ => rfl⟩, ?_⟩
    exact placed_of_stand placed ⟨rfl, rfl, rfl, rfl, fun j => ⟨rfl, rfl, rfl⟩⟩
  | holdsLoad a count basis clear _ =>
    refine ⟨heldInv_load unheld rfl rfl rfl, placed_withoutCopy placed rfl rfl rfl (fun armed => ?_) rfl⟩
    simp [State.hold, clear] at armed
  | performsLoad a count basis clear =>
    refine ⟨heldInv_load unheld rfl ?_ rfl, placed_performing placed clear (admits_basisBank placed basis) rfl rfl⟩
    exact (inFlight_issue _ _ _ _ _).trans (by simp; rfl)
  | commits result clear complete _ =>
    have swapped : BanksKept s.swap := by
      have armed := placed_of_banks (t := { s with sched.swapArmed := true }) placed rfl rfl placed.1 placed.2.1 fun _ => ⟨complete, load⟩
      exact blind.swap { s with sched.swapArmed := true } rfl ⟨held, armed⟩
    exact ends swapped (by rw [swap_proc, idle]) _ _
  | armsSwap clear complete _ =>
    exact ⟨held, placed_of_banks placed rfl rfl placed.1 placed.2.1 fun _ => ⟨complete, load⟩⟩
  | cancels _ =>
    have disarmed : BanksKept { s with sched.swapArmed := false } :=
      ⟨held, placed_of_banks placed rfl rfl placed.1 placed.2.1 fun armed => by simp at armed⟩
    unfold State.cancelOutstanding
    split
    · exact ends disarmed idle .ok .none
    · exact ends (banksKept_of_eq disarmed ⟨rfl, rfl, rfl, rfl⟩ rfl rfl rfl) idle .ok .none
  | selects r result => exact ends (u := s.takeSelects r) (banksKept_of_eq h ⟨rfl, rfl, rfl, rfl⟩ rfl rfl rfl) idle _ _
  | posts e result => exact ends (blind.present s e h) (by rw [present_proc, idle]) _ _
  | armsCorrupt _ => exact ends (relinked _) idle .ok .none
  | armsDrop _ => exact ends (relinked _) idle .ok .none

/-! ## The ends of CLOSE and RESTART, faults and resets -/

/-- The stream whose drain is over is the one that quiesces, and without it the processor is held for nothing (R54, R156). -/
theorem unheld_setStream (held : HeldInv s) {i : StreamId} (quiescing : (s.stream i).state = .quiescing) (c : Stream)
    (calm : c.state ≠ .quiescing) : Unheld (s.setStream i c) := by
  obtain ⟨single, streams, -, -⟩ := held
  obtain ⟨-, load, query⟩ := streams i quiescing
  refine ⟨fun j a => ?_, load, query⟩
  unfold State.quiescing at a
  rw [stream_setStream] at a
  split at a
  · exact calm a
  · next other => exact other (single j i a quiescing)

theorem banksKept_endClose (h : BanksKept s) {i : StreamId} (finished : (s.stream i).quiesceOver = true)
    (operation : (s.stream i).pendingOperation = some .close) (c : Command) : BanksKept (s.endClose c i) := by
  obtain ⟨held, placed⟩ := h
  obtain ⟨quiescing, -, -⟩ := (quiesceOver_iff _).1 finished
  obtain ⟨-, load, -⟩ := held.2.1 i quiescing
  obtain ⟨active, pending⟩ := (placed.2.1 i).2.2 quiescing operation
  have unnamed : ∀ b ∈ s.sched.banks, b.names i = false := by
    rw [banks_of_no_load load]
    simp [active, pending]
  have closed : Placed (s.setStream i Stream.reset) :=
    placed_setStream placed i _ ⟨by simp [Stream.reset], by simp [Stream.reset], by simp [Stream.reset]⟩ (.inr unnamed) fun _ => unnamed
  have unheld := unheld_setStream held quiescing Stream.reset (by simp [Stream.reset])
  exact banksKept_endHeld
    (s := (({ s with freePool := s.freePool + (s.stream i).depth } : State).setStream i Stream.reset).unbindMarkers i)
    (placed_of_stand closed ⟨rfl, rfl, rfl, rfl, fun j => ⟨rfl, rfl, rfl⟩⟩) unheld _ _ _

theorem banksKept_endRestart (h : BanksKept s) {i : StreamId} (finished : (s.stream i).quiesceOver = true) (c : Command) (n : Nat) :
    BanksKept (s.endRestart c i n) := by
  obtain ⟨held, placed⟩ := h
  obtain ⟨quiescing, -, -⟩ := (quiesceOver_iff _).1 finished
  have restarted : Placed (s.setStream i ((s.stream i).restartAt (s.sched.active.names i) n)) := by
    refine placed_setStream placed i _ ?_ (.inl rfl) ?_
    · cases named : s.sched.active.names i with
      | true => exact ⟨fun _ => named, by simp [Stream.restartAt], by simp [Stream.restartAt]⟩
      | false => exact ⟨by simp [Stream.restartAt], fun _ => named, by simp [Stream.restartAt]⟩
    · cases s.sched.active.names i <;> simp [Stream.restartAt]
  exact banksKept_endHeld restarted
    (unheld_setStream held quiescing _ (by cases s.sched.active.names i <;> simp [Stream.restartAt])) _ _ _

/-- In OFF after a reset there are no banks and no streams (R60, R86). -/
theorem banksKept_reset (streams : t.streams = Vector.replicate 32 Stream.reset) (sched : t.sched = Schedule.reset) (port : t.port = []) :
    BanksKept t := by
  have context (i : StreamId) : t.stream i = Stream.reset := by simp [State.stream, streams]
  refine ⟨heldInv_of_unheld ⟨fun i a => ?_, by rw [sched]; rfl, ?_⟩, fun b mem => ?_, fun i => ?_, ?_, fun armed => ?_⟩
  · simp [State.quiescing, context, Stream.reset] at a
  · rw [Bool.eq_false_iff]
    intro f
    obtain ⟨r, mem, -⟩ := (inFlight_iff _ _).1 f
    simp [port] at mem
  · rw [sched] at mem
    have empty : b = [] := by simpa [Schedule.banks, Schedule.reset] using mem
    rw [empty]
    exact admits_empty t
  · rw [context]
    exact ⟨by simp [Stream.reset], by simp [Stream.reset], by simp [Stream.reset]⟩
  · rw [sched, lowestLacking_eq_none_iff]
    simp [Schedule.reset, Bank.names]
  · simp [sched, Schedule.reset] at armed

theorem banksKept_offWhenQuiet (h : BanksKept s) : BanksKept s.offWhenQuiet := by
  unfold State.offWhenQuiet
  split
  · exact banksKept_reset rfl rfl rfl
  · exact h

/-- A LOAD that is abandoned leaves the two banks (R73). -/
theorem banksKept_abandonLoad (h : BanksKept s) (streams : t.streams = s.streams) (port : t.port = s.port) (proc : t.proc = s.proc)
    (active : t.sched.active = s.sched.active) (pending : t.sched.pending = s.sched.pending) (load : t.sched.load = .none)
    (armed : t.sched.swapArmed = s.sched.swapArmed) : BanksKept t := by
  obtain ⟨held, placed⟩ := h
  refine ⟨heldInv_of_stand held ⟨fun i a => ?_, fun l => absurd load l, ?_, ?_⟩, ?_⟩
  · unfold State.quiescing at a ⊢
    rwa [stream_congr streams i] at a
  · rw [inFlight_of_port port]
    exact id
  · rw [isHeld_of_proc (by rw [proc])]
    exact id
  · exact placed_withoutCopy placed streams active pending (fun a => ⟨armed ▸ a, load⟩) (banks_of_no_load load)

/-! ## Every step -/

theorem banksKept_retireFinished (h : BanksKept s) (i : StreamId) : BanksKept (s.retireFinished i) := by
  have frame := retireFinished_frame s i
  refine banksKept_of_context h (by rw [frame]) (by rw [frame]) (by rw [frame]) fun j => ?_
  rw [stream_retireFinished]
  exact ⟨rfl, rfl, rfl⟩

theorem banksKept_serveRetirement (h : BanksKept s) (i : StreamId) : BanksKept (s.serveRetirement i) := by
  have frame := serveRetirement_frame s i
  refine banksKept_of_context h (by rw [frame]) (by rw [frame]) (by rw [frame]) fun j => ?_
  by_cases other : j = i
  · subst other
    exact serveRetirement_keeps (K := fun c => c.state = (s.stream j).state ∧ c.shape = (s.stream j).shape
      ∧ c.pendingOperation = (s.stream j).pendingOperation) (fun _ _ same => same) s j ⟨rfl, rfl, rfl⟩
  · rw [stream_serveRetirement_of_ne s other]
    exact ⟨rfl, rfl, rfl⟩

theorem pendingOperation_takeWrite (c : Stream) (n : Nat) : (c.takeWrite n).pendingOperation = c.pendingOperation := by
  unfold Stream.takeWrite
  split <;> rfl

theorem pendingOperation_takeSamples (c : Stream) (samples : List Word) :
    (c.takeSamples samples).pendingOperation = c.pendingOperation := by
  unfold Stream.takeSamples
  split <;> rfl

theorem banksKept_storeElements (h : BanksKept s) (i : StreamId) (n : Nat) : BanksKept (s.storeElements i n) := by
  obtain ⟨state, shape⟩ := takeWrite_state_shape (s.stream i) n
  have stored := banksKept_setStream h i _ state shape (pendingOperation_takeWrite _ n)
  unfold State.storeElements
  dsimp only
  split
  · exact banksKept_retireFinished stored i
  · exact stored

theorem banksKept_tryRead (h : BanksKept s) (i : StreamId) : BanksKept (s.tryRead i) := by
  unfold State.tryRead
  dsimp only
  split
  · split
    · exact h
    · split
      · exact banksKept_issue (banksKept_setStream h i { s.stream i with dataInFlight := some _ } rfl rfl rfl) (by simp) _ _
      · exact h
  · exact h

theorem banksKept_tryWrite (h : BanksKept s) (i : StreamId) : BanksKept (s.tryWrite i) := by
  unfold State.tryWrite
  dsimp only
  split
  · split
    · exact h
    · split
      · exact banksKept_issue (banksKept_setStream h i { s.stream i with dataInFlight := some _ } rfl rfl rfl) (by simp) _ _
      · exact h
  · exact h

theorem banksKept_takeBlockNotify (h : BanksKept s) (i : StreamId) (v : BitVec 16) : BanksKept (s.takeBlockNotify i v) := by
  have told (e : Event) : BanksKept (s.present e) := commandBlind_banksKept.present s e h
  unfold State.takeBlockNotify
  dsimp only
  split
  · split
    · exact told _
    · split
      · exact told _
      · split
        · exact told _
        · exact banksKept_setStream h i _ rfl rfl rfl
  · exact h

/-- The rows of one stream keep the banks: they change no stream's state but to FAULTED. -/
theorem banksKept_streamActs (h : BanksKept s) (acts : StreamActs s t) : BanksKept t := by
  have descriptor (i : StreamId) : BanksKept ((s.answered (.descriptor i)).descriptorAnswered i) :=
    banksKept_setStream (banksKept_answered h _) i _ rfl rfl rfl
  have data (i : StreamId) : BanksKept ((s.answered (.data i)).dataAnswered i) :=
    banksKept_setStream (banksKept_answered h _) i _ rfl rfl rfl
  cases acts with
  | notifiesBlock i v => exact banksKept_takeBlockNotify h i v
  | readsDescriptor i sh _ _ _ =>
    exact banksKept_issue (banksKept_setStream h i { s.stream i with descriptorInFlight := true } rfl rfl rfl) (by simp) _ _
  | answersDescriptor i _ => exact descriptor i
  | takesDescriptor i words _ _ _ =>
    unfold State.judgeDescriptor
    split
    · exact banksKept_setStream (descriptor i) i _ rfl rfl rfl
    · exact banksKept_faultStream (descriptor i) i _ _
  | failsDescriptor i n _ => exact banksKept_faultStream (descriptor i) i _ _
  | readsData i => exact banksKept_tryRead h i
  | answersData i _ => exact data i
  | takesData i samples q _ _ _ _ _ =>
    obtain ⟨state, shape⟩ := takeSamples_state_shape (((s.answered (.data i)).dataAnswered i).stream i) samples
    exact banksKept_setStream (data i) i _ state shape (pendingOperation_takeSamples _ _)
  | failsData i cause _ =>
    unfold State.dataFailed
    split
    · exact data i
    · exact banksKept_faultStream (data i) i _ _
  | writesData i => exact banksKept_tryWrite h i
  | storesData i n _ _ => exact banksKept_storeElements (data i) i n
  | drains i _ _ => exact banksKept_retireFinished (banksKept_setStream h i (s.stream i).drain rfl rfl rfl) i
  | servesRetirement i _ _ => exact banksKept_serveRetirement h i

theorem banksKept_takeCommandNotify (h : BanksKept s) (v : BitVec 16) : BanksKept (s.takeCommandNotify v) := by
  unfold State.takeCommandNotify
  split
  · split
    · exact commandBlind_banksKept.present _ _ h
    · split
      · exact commandBlind_banksKept.present _ _ h
      · have moved : BanksKept { s with proc := s.proc.withProducer v.toNat } := by
          refine banksKept_of_stand h ⟨rfl, rfl, rfl, rfl, fun i => ⟨rfl, rfl, rfl⟩⟩ id fun held => ?_
          unfold State.isHeld Processor.withProducer at *
          dsimp only
          split at held <;> simp_all
        exact banksKept_lookForCommand moved
  · exact h

theorem banksKept_takeAcknowledge (h : BanksKept s) (v : BitVec 16) : BanksKept (s.takeAcknowledge v) := by
  unfold State.takeAcknowledge
  split
  · split
    · exact commandBlind_banksKept.present _ _ h
    · split
      · exact h
      · split
        · exact commandBlind_banksKept.present _ _ h
        · exact banksKept_of_eq h ⟨rfl, rfl, rfl, rfl⟩ rfl rfl rfl
  · exact h

/-- A processor that waits for a place holds no command (R151). -/
theorem isHeld_of_waitingPlace (waits : s.proc.state = .waitingPlace) : s.isHeld = false := by rw [State.isHeld, waits]

theorem banksKept_handOn (h : BanksKept s) : BanksKept s.handOn := by
  rcases handOn_cases s with ⟨-, e⟩ | ⟨-, -, ⟨-, e⟩ | ⟨-, waits, e⟩ | ⟨-, -, ⟨i, -, e⟩ | ⟨-, e⟩⟩⟩
  · rwa [e]
  · rw [e]
    exact banksKept_of_eq h ⟨rfl, rfl, rfl, rfl⟩ rfl rfl rfl
  · rw [e]
    exact banksKept_readCommand h (isHeld_of_waitingPlace waits)
  · rw [e]
    exact banksKept_serveRetirement h i
  · rwa [e]

/-- A record is taken from a processor that was READING, and held nothing. -/
theorem banksKept_afterTaking (h : BanksKept s) (taking : s.Taking) : BanksKept s.afterTaking := by
  obtain ⟨-, reading, -⟩ := taking
  refine banksKept_of_stand (banksKept_answered h .commandProcessor) ⟨rfl, rfl, rfl, rfl, fun i => ⟨rfl, rfl, rfl⟩⟩ id fun held => ?_
  simp [State.isHeld, reading] at held

/-- Every change keeps the banks admissible and the processor held for one purpose at most. -/
theorem banksKept_acts (h : BanksKept s) (acts : Acts s t) : BanksKept t := by
  have answered (tag : Requester) : BanksKept (s.answered tag) := banksKept_answered h tag
  have alike {u : State} (sched : u.sched.active = s.sched.active ∧ u.sched.pending = s.sched.pending ∧ u.sched.load = s.sched.load
      ∧ u.sched.swapArmed = s.sched.swapArmed) (streams : u.streams = s.streams) (port : u.port = s.port)
      (proc : u.proc.state = s.proc.state) : BanksKept u := banksKept_of_eq h sched streams port proc
  cases acts with
  | nothing => exact h
  | discards tag _ => exact banksKept_offWhenQuiet (answered tag)
  | answers tag _ => exact answered tag
  | writesHost w engine => exact alike ⟨rfl, rfl, rfl, rfl⟩ rfl rfl rfl
  | loads off => exact banksKept_issue (s := { s with host.engine := .loading }) (alike ⟨rfl, rfl, rfl, rfl⟩ rfl rfl rfl) (by simp) _ _
  | faultsAtEnable cause _ => exact banksKept_abandonLoad h rfl rfl rfl rfl rfl rfl rfl
  | faults tag cause _ => exact banksKept_abandonLoad (answered tag) rfl rfl rfl rfl rfl rfl rfl
  | resets _ => exact banksKept_offWhenQuiet (banksKept_abandonLoad h rfl rfl rfl rfl rfl rfl rfl)
  | hardResets source levels after =>
    cases after
    exact banksKept_reset rfl rfl rfl
  | readies words ring config _ _ => exact banksKept_of_eq (answered .hostWindow) ⟨rfl, rfl, rfl, rfl⟩ rfl rfl rfl
  | notifiesCommand v => exact banksKept_takeCommandNotify h v
  | acknowledges v => exact banksKept_takeAcknowledge h v
  | notifiesNoRing n v => exact commandBlind_banksKept.present _ _ h
  | looks => exact banksKept_lookForCommand h
  | takes c taking owned => exact banksKept_lookForCommand (banksKept_owned (banksKept_afterTaking h taking) rfl owned)
  | performsLoad a count basis _ _ held =>
    obtain ⟨holder, placed⟩ := id h
    have active : s.sched.load ≠ .none := by simp [held]
    have reading : BanksKept { s with sched.load := .performing (s.basisBank basis) a count 0 } :=
      ⟨heldInv_of_stand holder ⟨fun _ => id, fun _ => active, id, id⟩,
        placed_performing placed (disarmed_of_load placed active) (admits_basisBank placed basis) rfl rfl⟩
    exact banksKept_issue reading (by simp) _ _
  | takesChanges c working a count next entries _ _ load => exact banksKept_takeChanges (answered _) load c entries
  | failsLoad c result _ _ load => exact banksKept_endLoad (answered _) load c _ _
  | endsQuery c status _ _ written =>
    obtain ⟨held, placed⟩ := h
    obtain ⟨streams, load⟩ := alone_of_query held written
    exact banksKept_endHeld (s := s.answered .streamTable) (answered .streamTable).2
      ⟨streams, load, not_inFlight_answered s .streamTable⟩ c status .none
  | closes i c _ finished operation _ => exact banksKept_endClose h finished operation c
  | restarts i c n _ finished _ _ => exact banksKept_endRestart h finished c n
  | writesRing =>
    unfold State.tryRingWrite
    split
    · split
      · exact banksKept_issue h (by simp) _ _
      · exact h
    · exact h
  | writtenRing _ _ =>
    exact banksKept_handOn (s := { s.answered .completionUnit with comp := s.comp.recordWritten })
      (banksKept_of_eq (answered _) ⟨rfl, rfl, rfl, rfl⟩ rfl rfl rfl)
  | servesLoss _ _ => exact alike ⟨rfl, rfl, rfl, rfl⟩ rfl rfl rfl
  | servesCommand _ waits => exact banksKept_readCommand h (isHeld_of_waitingPlace waits)
  | expiresHoldoff _ _ => exact alike ⟨rfl, rfl, rfl, rfl⟩ rfl rfl rfl
  | link acts => exact commandBlind_banksKept.linkActs h acts
  | stream acts => exact banksKept_streamActs h acts

theorem banksInv_acts (h : BanksInv s) (acts : Acts s t) : BanksInv t := by
  obtain ⟨held, placed, shapes⟩ := banksInv_iff.1 h
  obtain ⟨heldAfter, placedAfter⟩ := banksKept_acts ⟨held, placed⟩ acts
  exact banksInv_iff.2 ⟨heldAfter, placedAfter, streamStable_shapesInv.acts shapes acts⟩

/-- Settles O60: every change keeps the banks admissible, the active bank complete, and each stream in the state that the banks give
it. -/
theorem banksStayAdmissible : Obligations.BanksStayAdmissible := keptByEveryStep_of_acts (fun _ _ h => h) banksInv_acts

end
end Sys2Proof.Machine

/-!
The return window (R8, R13, R82, R83): what a resolution, an entry to STOPPED, a swap and a frame start leave of it, and the statement that
every step keeps its entries the newest frames, in order, each of a generation that has a bank.
-/
namespace Sys2Proof.Machine

/-- Every entry of the window has a bank, and the window is empty out of RUNNING and STOPPING. -/
def EntriesOk (s : State) : Prop :=
  (∀ e ∈ s.ret.window, s.entryAnswered e) ∧ (s.link.state ≠ .running → s.link.state ≠ .stopping → s.ret.window = [])

/-- The retiring mark is set only while an old entry remains (R82), and STOPPING lasts only while something is left (R32). -/
def MarkSettled (s : State) : Prop :=
  (s.sched.retiring = true → s.windowHolds (s.sched.generation - 1) = true)
  ∧ (s.link.state = .stopping → s.ret.window ≠ [] ∨ s.link.transmitting = true)

/-- The frames of the window are the newest that have started, at most two and in order (R8). -/
def FramesOk (s : State) : Prop :=
  s.ret.window.map (·.frame) = [] ∨ s.ret.window.map (·.frame) = [s.link.frame]
  ∨ s.ret.window.map (·.frame) = [s.link.frame - 1, s.link.frame]

/-- From `s` to `t` the link has at most begun a fault stop, and the window and the schedule stand (R33). -/
structure HealthStand (s t : State) : Prop where
  frame : t.link.frame = s.link.frame
  transmitting : t.link.transmitting = s.link.transmitting
  ret : t.ret = s.ret
  sched : t.sched = s.sched
  state : t.link.state = s.link.state ∨ s.link.state = .running ∧ t.link.state = .stopping

section
variable {s t u : State}

/-! ## Turns and health -/

theorem HealthStand.refl (s : State) : HealthStand s s := ⟨rfl, rfl, rfl, rfl, .inl rfl⟩

theorem healthStand_of_eq (link : t.link = s.link) (ret : t.ret = s.ret) (sched : t.sched = s.sched) : HealthStand s t :=
  ⟨by rw [link], by rw [link], ret, sched, .inl (by rw [link])⟩

theorem HealthStand.trans (h : HealthStand s t) (k : HealthStand t u) : HealthStand s u where
  frame := k.frame.trans h.frame
  transmitting := k.transmitting.trans h.transmitting
  ret := k.ret.trans h.ret
  sched := k.sched.trans h.sched
  state := by
    rcases k.state with same | ⟨running, stopping⟩
    · rw [same]
      exact h.state
    · rcases h.state with before | ⟨-, already⟩
      · exact .inr ⟨before ▸ running, stopping⟩
      · rw [already] at running
        cases running

theorem healthStand_present (s : State) (e : Event) : HealthStand s (s.present e) := healthStand_of_eq (by simp) (by simp) (by simp)

theorem healthStand_inTurns (b : Bank) (f : FrameNo) (r : Resolution) (words : List Word) (l : List StreamId) (s : State) :
    HealthStand s (l.foldl (inStreamTurn b f r words) s) := by
  have frame := inTurns_frame s b f r words l
  exact healthStand_of_eq (by rw [frame]) (by rw [frame]) (by rw [frame])

theorem healthStand_goodReturn (s : State) (f : FrameNo) : HealthStand s (s.goodReturn f) := by
  unfold State.goodReturn
  split
  · exact .refl s
  · exact ⟨by simp, by simp, by simp, by simp, .inl (by simp)⟩

theorem healthStand_badReturn (s : State) (f : FrameNo) : HealthStand s (s.badReturn f) := by
  have counted : HealthStand s { s with link.badRun := countUp s.link.badRun } := ⟨rfl, rfl, rfl, rfl, .inl rfl⟩
  have told : HealthStand s (if s.link.badRun = 0 then
      ({ s with link.badRun := countUp s.link.badRun } : State).present (.linkDegraded f s.ret.lastStation)
    else { s with link.badRun := countUp s.link.badRun }) := by
    split
    · exact counted.trans (healthStand_present _ _)
    · exact counted
  unfold State.badReturn
  dsimp only
  split
  · next reaches =>
    simp only [State.reachesThreshold, Bool.and_eq_true, decide_eq_true_eq] at reaches
    obtain ⟨⟨⟨running, -⟩, -⟩, -⟩ := reaches
    exact ⟨told.frame, told.transmitting, told.ret, told.sched, .inr ⟨running, rfl⟩⟩
  · exact told

/-- What a resolution does before its notice: the turns and the link's health (R13). -/
theorem resolve_eq_notice (s : State) (e : WindowEntry) (r : Resolution) (words : List Word) :
    ∃ t, HealthStand s t ∧ s.resolve e r words = t.windowNotice := by
  have turns := healthStand_inTurns (s.bankOf e.generation) e.frame r words allStreams s
  unfold State.resolve
  cases r with
  | good => exact ⟨_, turns.trans (healthStand_goodReturn _ _), rfl⟩
  | damaged => exact ⟨_, turns.trans (healthStand_badReturn _ _), rfl⟩
  | missing => exact ⟨_, turns.trans (healthStand_badReturn _ _), rfl⟩

/-! ## Entries -/

/-- The window, the frame number and the schedule judge the entries. -/
theorem entryAnswered_congr {e : WindowEntry} (h : s.entryAnswered e) (frame : t.link.frame = s.link.frame)
    (generation : t.sched.generation = s.sched.generation) (retiring : t.sched.retiring = s.sched.retiring) : t.entryAnswered e := by
  unfold State.entryAnswered at h ⊢
  rwa [frame, generation, retiring]

theorem entriesOk_of_health (h : EntriesOk s) (k : HealthStand s t) : EntriesOk t := by
  obtain ⟨answered, empty⟩ := h
  refine ⟨fun e mem => ?_, fun running stopping => ?_⟩
  · rw [k.ret] at mem
    exact entryAnswered_congr (answered e mem) k.frame (by rw [k.sched]) (by rw [k.sched])
  · rw [k.ret]
    rcases k.state with same | ⟨-, e⟩
    · rw [same] at running stopping
      exact empty running stopping
    · exact absurd e stopping

theorem framesOk_congr (h : FramesOk s) (ret : t.ret.window = s.ret.window) (frame : t.link.frame = s.link.frame) : FramesOk t := by
  unfold FramesOk at h ⊢
  rwa [ret, frame]

theorem windowHolds_iff (s : State) (g : Gen) : s.windowHolds g = true ↔ ∃ e ∈ s.ret.window, e.generation = g := by
  simp [State.windowHolds]

/-- With an empty window no old entry remains. -/
theorem not_windowHolds_of_empty (empty : s.ret.window = []) (g : Gen) : s.windowHolds g = false := by
  simp [State.windowHolds, empty]

theorem retiring_eq_false (h : MarkSettled s) (empty : s.ret.window = []) : s.sched.retiring = false := by
  by_contra mark
  have holds := h.1 (by simpa using mark)
  simp [not_windowHolds_of_empty empty] at holds

/-! ## Entries to STOPPED -/

@[simp] theorem enterStopped_ret (s : State) (a : CommandStatus) : (s.enterStopped a).ret = s.ret := by rw [enterStopped_frame]

/-- With an empty window an armed swap leaves the mark clear (R82). -/
theorem retiring_performArmedSwap (clear : s.sched.retiring = false) (empty : s.ret.window = []) (first : Option FrameNo) :
    (s.performArmedSwap first).sched.retiring = false := by
  rw [(performArmedSwap_moves s first).1]
  split
  · simp [State.scheduleSwapped, empty]
  · exact clear

/-- In STOPPED the window is empty and the mark is clear (R32, R82). -/
theorem settled_enterStopped (clear : s.sched.retiring = false) (empty : s.ret.window = []) (a : CommandStatus) :
    EntriesOk (s.enterStopped a) ∧ MarkSettled (s.enterStopped a) ∧ FramesOk (s.enterStopped a) := by
  have window : (s.enterStopped a).ret.window = [] := by rw [enterStopped_ret, empty]
  have unmarked : (s.enterStopped a).sched.retiring = false := by
    rw [enterStopped_sched]
    exact retiring_performArmedSwap clear empty none
  refine ⟨⟨fun e mem => ?_, fun _ _ => window⟩, ⟨fun mark => by simp [unmarked] at mark, by simp⟩, .inl (by rw [window]; rfl)⟩
  rw [window] at mem
  cases mem

/-- The passage to STOPPED, when it is due, leaves the window as it is and settled (R32). -/
theorem settled_stopWhenDone (entries : EntriesOk s) (mark : s.sched.retiring = true → s.windowHolds (s.sched.generation - 1) = true) :
    EntriesOk s.stopWhenDone ∧ MarkSettled s.stopWhenDone := by
  rcases stopWhenDone_cases s with ⟨-, empty, -, e⟩ | ⟨left, e⟩
  · have clear : s.sched.retiring = false := by
      by_contra set
      have holds := mark (by simpa using set)
      simp [not_windowHolds_of_empty empty] at holds
    obtain ⟨entries, settled, -⟩ := settled_enterStopped clear empty .cancelled
    rw [e]
    exact ⟨entries, settled⟩
  · rw [e]
    refine ⟨entries, mark, fun stopping => ?_⟩
    by_contra none
    simp only [not_or, ne_eq, not_not, Bool.not_eq_true] at none
    exact left ⟨stopping, none.1, none.2⟩

theorem stopWhenDone_window (s : State) : s.stopWhenDone.ret = s.ret ∧ s.stopWhenDone.link.frame = s.link.frame := by
  rcases stopWhenDone_cases s with ⟨-, -, -, e⟩ | ⟨-, e⟩
  · rw [e, enterStopped_ret, enterStopped_link]
    exact ⟨rfl, rfl⟩
  · rw [e]
    exact ⟨rfl, rfl⟩

/-! ## Resolutions -/

/-- The notice after an entry has left clears the mark with the last old entry (R13, R82). -/
theorem settled_windowNotice (entries : EntriesOk s) : EntriesOk s.windowNotice ∧ MarkSettled s.windowNotice := by
  obtain ⟨answered, empty⟩ := entries
  refine settled_stopWhenDone ⟨fun e mem => ?_, empty⟩ fun mark => ?_
  · rcases answered e mem with current | ⟨mark, old, frame, round⟩
    · exact .inl current
    · refine .inr ⟨?_, old, frame, round⟩
      have holds : s.windowHolds (s.sched.generation - 1) = true :=
        (windowHolds_iff s _).2 ⟨e, mem, by rw [← old]; bv_omega⟩
      simpa [mark] using holds
  · simp only [Bool.and_eq_true] at mark
    exact mark.2

/-- The window after a resolution is as its caller left it, and the entries and the mark are settled (R13). -/
theorem settled_resolve (entries : EntriesOk s) (e : WindowEntry) (r : Resolution) (words : List Word) :
    EntriesOk (s.resolve e r words) ∧ MarkSettled (s.resolve e r words) := by
  obtain ⟨t, health, eq⟩ := resolve_eq_notice s e r words
  rw [eq]
  exact settled_windowNotice (entriesOk_of_health entries health)

theorem resolve_link_frame (s : State) (e : WindowEntry) (r : Resolution) (words : List Word) :
    (s.resolve e r words).link.frame = s.link.frame := by
  obtain ⟨t, health, eq⟩ := resolve_eq_notice s e r words
  rw [eq]
  exact (stopWhenDone_window _).2.trans health.frame

/-- While an entry is left in the window a resolution makes no entry to STOPPED: only the mark and a fault stop can follow (R32). -/
theorem resolve_of_left (left : s.ret.window ≠ []) (e : WindowEntry) (r : Resolution) (words : List Word) :
    (s.resolve e r words).sched
      = { s.sched with retiring := s.sched.retiring && s.windowHolds (s.sched.generation - 1) }
    ∧ ((s.resolve e r words).link.state = s.link.state ∨ s.link.state = .running ∧ (s.resolve e r words).link.state = .stopping) := by
  obtain ⟨t, health, eq⟩ := resolve_eq_notice s e r words
  rw [eq, State.windowNotice]
  rcases stopWhenDone_cases { t with sched.retiring := t.sched.retiring && t.windowHolds (t.sched.generation - 1) }
    with ⟨-, empty, -⟩ | ⟨-, stands⟩
  · exact absurd (health.ret ▸ empty) left
  · rw [stands]
    refine ⟨?_, health.state⟩
    simp only [State.windowHolds, health.ret, health.sched]

/-- The entries that an entry leaves behind are as they were. -/
theorem entriesOk_tail {e : WindowEntry} {rest : List WindowEntry} (h : EntriesOk s) (window : s.ret.window = e :: rest) :
    EntriesOk { s with ret.window := rest } := by
  obtain ⟨answered, empty⟩ := h
  refine ⟨fun x mem => answered x (by rw [window]; exact .tail e mem), fun running stopping => ?_⟩
  have none := empty running stopping
  simp [window] at none

theorem framesOk_tail {e : WindowEntry} {rest : List WindowEntry} (h : FramesOk s) (window : s.ret.window = e :: rest) :
    FramesOk { s with ret.window := rest } := by
  unfold FramesOk at h ⊢
  rw [window] at h
  rcases h with none | one | two
  · simp at none
  · exact .inl (by simpa using (List.cons.inj one).2)
  · exact .inr (.inl (List.cons.inj two).2)

/-- The window in order, settled. -/
def WindowSettled (s : State) : Prop := EntriesOk s ∧ MarkSettled s ∧ FramesOk s

theorem windowSettled_resolve {e : WindowEntry} {rest : List WindowEntry} (h : WindowSettled s) (window : s.ret.window = e :: rest)
    (r : Resolution) (words : List Word) : WindowSettled (({ s with ret.window := rest } : State).resolve e r words) := by
  obtain ⟨entries, -, frames⟩ := h
  obtain ⟨entries, mark⟩ := settled_resolve (entriesOk_tail entries window) e r words
  exact ⟨entries, mark, framesOk_congr (framesOk_tail frames window) (by rw [resolve_ret]) (resolve_link_frame _ _ _ _)⟩

theorem windowSettled_resolveOldestMissing (h : WindowSettled s) : WindowSettled s.resolveOldestMissing := by
  unfold State.resolveOldestMissing
  split
  · exact h
  · next window => exact windowSettled_resolve h window _ _

theorem windowSettled_resolveThrough (n : FrameNo) (r : Resolution) (words : List Word) (k : Nat) :
    ∀ {s : State}, WindowSettled s → WindowSettled (resolveThrough k n r words s) := by
  induction k with
  | zero => exact fun h => h
  | succ k ih =>
    intro s h
    unfold resolveThrough
    split
    · exact h
    · next window =>
      split
      · exact windowSettled_resolve h window _ _
      · exact ih (windowSettled_resolveOldestMissing h)

theorem windowSettled_stopWhenDone (entries : EntriesOk s)
    (mark : s.sched.retiring = true → s.windowHolds (s.sched.generation - 1) = true) (frames : FramesOk s) :
    WindowSettled s.stopWhenDone := by
  obtain ⟨entries, settled⟩ := settled_stopWhenDone entries mark
  exact ⟨entries, settled, framesOk_congr frames (by rw [(stopWhenDone_window s).1]) (stopWhenDone_window s).2⟩

theorem windowSettled_unmatchedReturn (h : WindowSettled s) (f : FrameNo) : WindowSettled (s.unmatchedReturn f) := by
  obtain ⟨entries, ⟨mark, -⟩, frames⟩ := h
  have health := healthStand_badReturn s f
  refine windowSettled_stopWhenDone (entriesOk_of_health entries health) ?_ (framesOk_congr frames (by rw [health.ret]) health.frame)
  rw [State.windowHolds, health.ret, health.sched]
  exact mark

/-- What the window is judged by stands. -/
theorem windowSettled_of_eq (h : WindowSettled s) (window : t.ret.window = s.ret.window) (state : t.link.state = s.link.state)
    (frame : t.link.frame = s.link.frame) (transmitting : t.link.transmitting = s.link.transmitting)
    (sched : t.sched.generation = s.sched.generation ∧ t.sched.retiring = s.sched.retiring) : WindowSettled t := by
  obtain ⟨⟨answered, empty⟩, ⟨mark, left⟩, frames⟩ := h
  obtain ⟨generation, retiring⟩ := sched
  refine ⟨⟨fun e mem => ?_, ?_⟩, ⟨?_, ?_⟩, framesOk_congr frames window frame⟩
  · rw [window] at mem
    exact entryAnswered_congr (answered e mem) frame generation retiring
  · rwa [window, state]
  · rwa [retiring, generation, State.windowHolds, window]
  · rwa [window, state, transmitting]

/-- An arrival keeps the window in order, whatever it answers (R5, R10 to R13). -/
theorem windowSettled_takeArrival (h : WindowSettled s) (words : List Word) (ragged : Bool) : WindowSettled (s.takeArrival words ragged) := by
  unfold State.takeArrival
  split
  · exact windowSettled_of_eq h rfl rfl rfl rfl ⟨rfl, rfl⟩
  · split
    · unfold State.takeGoodReturn
      dsimp only
      have kept : WindowSettled { s with ret.lastStation := words.getD 1 0 } := windowSettled_of_eq h rfl rfl rfl rfl ⟨rfl, rfl⟩
      split
      · exact windowSettled_resolveThrough _ _ _ _ kept
      · exact windowSettled_unmatchedReturn kept _
    · unfold State.takeDamagedReturn
      split
      · exact windowSettled_unmatchedReturn h _
      · split
        · exact windowSettled_of_eq (windowSettled_resolveThrough _ _ _ _ h) rfl rfl rfl rfl ⟨rfl, rfl⟩
        · exact windowSettled_unmatchedReturn h _

/-! ## Frame starts -/

/-- The window as frame `f` finds it, the bank in force settled: of the frames before `f`, at most two, the newest the frame before it and
of a generation that has a bank. -/
def BeforeFrame (f : FrameNo) (s : State) : Prop :=
  (s.ret.window = [] ∨ ∃ e, e.frame + 1 = f ∧ s.entryAnswered e ∧ (s.ret.window = [e] ∨ ∃ old, s.ret.window = [old, e]))
  ∧ (s.sched.retiring = true → s.windowHolds (s.sched.generation - 1) = true)
  ∧ s.link.frame = f ∧ s.link.state = .running

theorem beforeFrame_of_eq {f : FrameNo} (h : BeforeFrame f s) (link : t.link = s.link) (ret : t.ret = s.ret) (sched : t.sched = s.sched) :
    BeforeFrame f t := by
  unfold BeforeFrame State.entryAnswered State.windowHolds at h ⊢
  rwa [link, ret, sched]

/-- A frame that joins entries that have their banks. -/
theorem entriesOk_append {f : FrameNo} (entries : EntriesOk s) (active : s.link.state = .running ∨ s.link.state = .stopping) (d : Nat) :
    EntriesOk { s with ret.window := s.ret.window ++ [{ frame := f, generation := s.sched.generation, deadline := d }] } := by
  refine ⟨fun e mem => ?_, fun running stopping => absurd active (not_or.2 ⟨running, stopping⟩)⟩
  rcases List.mem_append.1 mem with old | new
  · exact entries.1 e old
  · rw [List.mem_singleton.1 new]
    exact .inl rfl

/-- A frame enters the window with the number before it alone left there, the older of two having resolved MISSING (R8). -/
theorem window_append {f : FrameNo} (before : t.ret.window = [] ∨ ∃ e : WindowEntry, e.frame + 1 = f ∧ t.ret.window = [e])
    (entries : EntriesOk t) (mark : t.sched.retiring = true → t.windowHolds (t.sched.generation - 1) = true) (frame : t.link.frame = f)
    (active : t.link.state = .running ∨ t.link.state = .stopping) (d : Nat) {u : State}
    (appended : u = { t with ret.window := t.ret.window ++ [{ frame := f, generation := t.sched.generation, deadline := d }] }) :
    EntriesOk u ∧ FramesOk u ∧ (u.sched.retiring = true → u.windowHolds (u.sched.generation - 1) = true) := by
  subst appended
  refine ⟨entriesOk_append entries active d, ?_, fun set => ?_⟩
  · unfold FramesOk
    dsimp only
    rcases before with none | ⟨e, next, one⟩
    · rw [none, frame]
      exact .inr (.inl rfl)
    · rw [one, frame, ← next]
      refine .inr (.inr ?_)
      simp
  · obtain ⟨e, mem, old⟩ := (windowHolds_iff _ _).1 (mark set)
    exact (windowHolds_iff _ _).2 ⟨e, List.mem_append_left _ mem, old⟩

theorem windowOk_appendToWindow {f : FrameNo} {g : Gen} (h : BeforeFrame f s) (generation : g = s.sched.generation) :
    EntriesOk (s.appendToWindow f g) ∧ FramesOk (s.appendToWindow f g)
    ∧ ((s.appendToWindow f g).sched.retiring = true →
      (s.appendToWindow f g).windowHolds ((s.appendToWindow f g).sched.generation - 1) = true) := by
  subst generation
  obtain ⟨window, mark, frame, running⟩ := h
  unfold State.appendToWindow
  dsimp only
  rcases window with none | ⟨e, next, answered, one | ⟨old, two⟩⟩
  · rw [if_neg (by simp [none])]
    exact window_append (.inl none) ⟨by simp [none], fun _ _ => none⟩ mark frame (.inl running) _ rfl
  · rw [if_neg (by simp [one])]
    exact window_append (.inr ⟨e, next, one⟩) ⟨by simpa [one] using answered, fun run => absurd running run⟩ mark frame (.inl running) _ rfl
  · rw [if_pos (by simp [two]), State.resolveOldestMissing, two]
    dsimp only
    have entries : EntriesOk { s with ret.window := [e] } := ⟨fun x mem => List.mem_singleton.1 mem ▸ answered, fun run => absurd running run⟩
    obtain ⟨resolved, ⟨marked, -⟩⟩ := settled_resolve entries old .missing []
    obtain ⟨sched, state⟩ := resolve_of_left (s := { s with ret.window := [e] }) (by simp) old .missing []
    have number := resolve_link_frame { s with ret.window := [e] } old .missing []
    have left := resolve_ret { s with ret.window := [e] } old .missing []
    generalize State.resolve _ old .missing [] = t at *
    have same : t.sched.generation = s.sched.generation := by rw [sched]
    refine window_append (.inr ⟨e, next, by rw [left]⟩) resolved marked (number.trans frame) ?_ _ (by rw [same])
    rcases state with stands | ⟨-, stopping⟩
    · exact .inl (stands.trans running)
    · exact .inr stopping

/-- The number of a frame that starts a round follows one that does not. -/
theorem not_round_before {f : FrameNo} (round : (f + 1).toNat % 64 = 0) : f.toNat % 64 ≠ 0 := by
  rw [BitVec.toNat_add] at round
  simp only [BitVec.ofNat_eq_ofNat, BitVec.toNat_ofNat] at round
  omega

/-- Of a window in order the newest entry is the last frame started, and has the bank of the current generation while no swap has been
performed since (R82). -/
theorem newest_of_settled (h : WindowSettled s) :
    s.ret.window = [] ∨ ∃ e, e.frame = s.link.frame ∧ e.generation = s.sched.generation
      ∧ (s.ret.window = [e] ∨ ∃ old, s.ret.window = [old, e]) := by
  obtain ⟨⟨answered, -⟩, -, frames⟩ := h
  have current {e : WindowEntry} (mem : e ∈ s.ret.window) (last : e.frame = s.link.frame) : e.generation = s.sched.generation := by
    rcases answered e mem with now | ⟨-, -, next, -⟩
    · exact now
    · rw [last] at next
      bv_omega
  rcases frames with none | one | two
  · exact .inl (List.map_eq_nil_iff.1 none)
  · obtain ⟨e, window, last⟩ := List.map_eq_singleton_iff.1 one
    exact .inr ⟨e, last, current (by simp [window]) last, .inl window⟩
  · obtain ⟨old, tail, window, -, rest⟩ := List.map_eq_cons_iff.1 two
    obtain ⟨e, one, last⟩ := List.map_eq_singleton_iff.1 rest
    rw [one] at window
    exact .inr ⟨e, last, current (by simp [window]) last, .inr ⟨old, window⟩⟩

/-- With the bank in force settled, the window is as the frame finds it (R77, R82). -/
theorem beforeFrame_settleBank (h : WindowSettled s) (running : s.link.state = .running) {f : FrameNo}
    (next : f = s.link.frame + 1 ∨ s.ret.window = []) :
    BeforeFrame f (({ s with link.frame := f, link.frameTimer := true } : State).settleBank f) := by
  have newest := newest_of_settled h
  obtain ⟨-, ⟨mark, -⟩, -⟩ := id h
  unfold State.settleBank
  split
  case isFalse =>
    refine ⟨newest.imp id ?_, mark, rfl, running⟩
    rintro ⟨e, last, current, left⟩
    refine ⟨e, ?_, .inl current, left⟩
    rcases next with next | none
    · rw [last, next]
    · simp [none] at left
  case isTrue round =>
    have sched := (performArmedSwap_moves { s with link.frame := f, link.frameTimer := true } (some f)).1
    have frame := performArmedSwap_frame { s with link.frame := f, link.frameTimer := true } (some f)
    have link : (State.performArmedSwap { s with link.frame := f, link.frameTimer := true } (some f)).link
      = { s.link with frame := f, frameTimer := true } := by rw [frame]
    have ret : (State.performArmedSwap { s with link.frame := f, link.frameTimer := true } (some f)).ret = s.ret := by rw [frame]
    generalize State.performArmedSwap _ (some f) = t at *
    dsimp only at sched
    split at sched
    case isFalse =>
      unfold BeforeFrame State.entryAnswered State.windowHolds
      rw [ret, link, sched]
      refine ⟨newest.imp id ?_, mark, rfl, running⟩
      rintro ⟨e, last, current, left⟩
      refine ⟨e, ?_, .inl current, left⟩
      rcases next with next | none
      · rw [last, next]
      · simp [none] at left
    case isTrue =>
      unfold BeforeFrame State.entryAnswered State.windowHolds
      rw [ret, link, sched]
      refine ⟨newest.imp id ?_, fun set => ?_, rfl, running⟩
      · rintro ⟨e, last, current, left⟩
        have after : e.frame + 1 = f := by
          rcases next with next | none
          · rw [last, next]
          · simp [none] at left
        have mem : e ∈ s.ret.window := by rcases left with one | ⟨old, two⟩ <;> simp [*]
        refine ⟨e, after, .inr ⟨?_, ?_, after, round⟩, left⟩
        · exact List.any_eq_true.2 ⟨e, mem, by simp [current]⟩
        · simp [State.scheduleSwapped, current]
      · simpa [State.scheduleSwapped] using set

/-- Every frame start leaves the window in order, with a frame in transmission (R8, R23). -/
theorem windowSettled_frameStart (h : WindowSettled s) (running : s.link.state = .running) {f : FrameNo}
    (next : f = s.link.frame + 1 ∨ s.ret.window = []) : WindowSettled (s.frameStart f) := by
  have bank := beforeFrame_settleBank h running next
  unfold State.frameStart
  dsimp only
  generalize State.settleBank _ f = b at bank ⊢
  have frame := outTurns_frame b f allStreams
  have turns : BeforeFrame f (allStreams.foldl (outStreamTurn f) b) := beforeFrame_of_eq bank (by rw [frame]) (by rw [frame]) (by rw [frame])
  have generation : b.sched.generation = (allStreams.foldl (outStreamTurn f) b).sched.generation := by rw [frame]
  obtain ⟨⟨answered, empty⟩, frames, mark⟩ := windowOk_appendToWindow turns generation
  generalize State.appendToWindow _ f b.sched.generation = t at *
  exact ⟨⟨answered, empty⟩, ⟨mark, fun _ => .inr rfl⟩, frames⟩

end
end Sys2Proof.Machine

/-!
The return window under the rows: what leaves the link, the Return Unit and the generation alone, the work of READY, and every step.
-/
namespace Sys2Proof.Machine

/-- From `s` to `t` the engine state, the link, the Return Unit, the generation and the retiring mark stand. -/
structure WindowStand (s t : State) : Prop where
  engine : t.host.engine = s.host.engine
  link : t.link = s.link
  ret : t.ret = s.ret
  generation : t.sched.generation = s.sched.generation
  retiring : t.sched.retiring = s.sched.retiring

section
variable {s t u : State}

/-- In READY the window is settled. -/
theorem windowInv_iff_settled (ready : s.host.engine = .ready) : WindowInv s ↔ WindowSettled s := by
  have untaken : s.takesArrivals = false ↔ s.link.state ≠ .running ∧ s.link.state ≠ .stopping := by
    simp [State.takesArrivals, ready]
  constructor
  · rintro ⟨frames, empty, answered, mark, left, -⟩
    exact ⟨⟨answered, fun running stopping => empty (untaken.2 ⟨running, stopping⟩)⟩, ⟨mark, left ready⟩, frames⟩
  · rintro ⟨⟨answered, empty⟩, ⟨mark, left⟩, frames⟩
    refine ⟨frames, fun none => ?_, answered, mark, fun _ => left, fun off => ?_⟩
    · obtain ⟨running, stopping⟩ := untaken.1 none
      exact empty running stopping
    · simp [ready] at off

/-- Out of READY the window is empty and the mark is clear, and before and after a run of the engine the link is UNCONFIGURED (R16, R35,
R82). -/
theorem windowInv_iff_empty (off : s.host.engine ≠ .ready) :
    WindowInv s ↔ s.ret.window = [] ∧ s.sched.retiring = false ∧ (s.host.engine ≠ .fault → s.link.state = .unconfigured) := by
  have untaken : s.takesArrivals = false := by simp [State.takesArrivals, off]
  have others : s.host.engine = .off ∨ s.host.engine = .loading ∨ s.host.engine = .resetting ↔ s.host.engine ≠ .fault := by
    cases engine : s.host.engine <;> simp_all
  constructor
  · rintro ⟨-, empty, -, mark, -, unconfigured⟩
    have none := empty untaken
    refine ⟨none, ?_, fun calm => unconfigured (others.2 calm)⟩
    by_contra set
    have holds := mark (by simpa using set)
    simp [not_windowHolds_of_empty none] at holds
  · rintro ⟨none, clear, unconfigured⟩
    exact ⟨.inl (by simp [none]), fun _ => none, by simp [none], by simp [clear], fun ready => absurd ready off,
      fun calm => unconfigured (others.1 calm)⟩

/-! ## What leaves the window alone -/

theorem WindowStand.refl (s : State) : WindowStand s s := ⟨rfl, rfl, rfl, rfl, rfl⟩

theorem WindowStand.trans (h : WindowStand s t) (k : WindowStand t u) : WindowStand s u where
  engine := k.engine.trans h.engine
  link := k.link.trans h.link
  ret := k.ret.trans h.ret
  generation := k.generation.trans h.generation
  retiring := k.retiring.trans h.retiring

theorem windowSettled_of_stand (h : WindowSettled s) (k : WindowStand s t) : WindowSettled t :=
  windowSettled_of_eq h (by rw [k.ret]) (by rw [k.link]) (by rw [k.link]) (by rw [k.link]) ⟨k.generation, k.retiring⟩

theorem windowInv_of_stand (h : WindowInv s) (k : WindowStand s t) : WindowInv t := by
  by_cases ready : s.host.engine = .ready
  · exact (windowInv_iff_settled (k.engine.trans ready)).2 (windowSettled_of_stand ((windowInv_iff_settled ready).1 h) k)
  · have off : t.host.engine ≠ .ready := by rwa [k.engine]
    rw [windowInv_iff_empty ready] at h
    rw [windowInv_iff_empty off, k.ret, k.retiring, k.engine, k.link]
    exact h

theorem windowStand_elsewhere (h : Elsewhere s t) : WindowStand s t :=
  ⟨by rw [h.host], h.link, h.ret, by rw [h.sched], by rw [h.sched]⟩

theorem windowStand_present (s : State) (e : Event) : WindowStand s (s.present e) := windowStand_elsewhere (.present s e)

theorem windowStand_readCommand (s : State) : WindowStand s s.readCommand := by
  unfold State.readCommand
  split
  · exact .refl s
  · exact ⟨rfl, rfl, rfl, rfl, rfl⟩

theorem windowStand_lookForCommand (s : State) : WindowStand s s.lookForCommand := by
  unfold State.lookForCommand State.beginCommand
  split
  · split
    · exact windowStand_readCommand s
    · exact ⟨rfl, rfl, rfl, rfl, rfl⟩
  · exact .refl s

theorem windowStand_endCommand (s : State) (c : Command) (status : CommandStatus) (result : CommandResult) :
    WindowStand s (s.endCommand c status result) := ⟨rfl, rfl, rfl, rfl, rfl⟩

theorem windowStand_endHeld (s : State) (c : Command) (status : CommandStatus) (result : CommandResult) :
    WindowStand s (s.endHeld c status result) := (windowStand_endCommand s c status result).trans (windowStand_lookForCommand _)

theorem windowStand_takeCommandNotify (s : State) (v : BitVec 16) : WindowStand s (s.takeCommandNotify v) := by
  unfold State.takeCommandNotify
  split
  · split
    · exact windowStand_present s _
    · split
      · exact windowStand_present s _
      · exact WindowStand.trans (t := { s with proc := s.proc.withProducer v.toNat }) ⟨rfl, rfl, rfl, rfl, rfl⟩
          (windowStand_lookForCommand _)
  · exact .refl s

theorem windowStand_takeAcknowledge (s : State) (v : BitVec 16) : WindowStand s (s.takeAcknowledge v) := by
  unfold State.takeAcknowledge
  split
  · split
    · exact windowStand_present s _
    · split
      · exact .refl s
      · split
        · exact windowStand_present s _
        · exact ⟨rfl, rfl, rfl, rfl, rfl⟩
  · exact .refl s

theorem windowStand_takeChanges (s : State) (c : Command) (working : Bank) (a : Addr) (count next : Nat) (entries : List Word) :
    WindowStand s (s.takeChanges c working a count next entries) := by
  unfold State.takeChanges
  split
  · exact WindowStand.trans (t := { s with sched.load := .none }) ⟨rfl, rfl, rfl, rfl, rfl⟩ (windowStand_endHeld _ _ _ _)
  · next done _ =>
    split
    · exact WindowStand.trans (t := { s with sched.pending := done, sched.load := .none }) ⟨rfl, rfl, rfl, rfl, rfl⟩
        (windowStand_endHeld _ _ _ _)
    · exact ⟨rfl, rfl, rfl, rfl, rfl⟩

theorem windowStand_handOn (s : State) : WindowStand s s.handOn := by
  rcases handOn_cases s with ⟨-, e⟩ | ⟨-, free, ⟨-, e⟩ | ⟨-, -, e⟩ | ⟨-, -, ⟨i, -, e⟩ | ⟨-, e⟩⟩⟩
  · rw [e]
    exact .refl s
  · rw [e]
    exact ⟨rfl, rfl, rfl, rfl, rfl⟩
  · rw [e]
    exact windowStand_readCommand s
  · rw [e]
    exact windowStand_elsewhere (.serveRetirement s i free)
  · rw [e]
    exact .refl s

/-! ## The rows of the link in READY -/

/-- A link that takes no returns leaves the window empty, and may move among its other states (R16). -/
theorem windowSettled_calm (h : WindowSettled s) (calm : s.link.state ≠ .running ∧ s.link.state ≠ .stopping) (window : t.ret.window = [])
    (retiring : t.sched.retiring = s.sched.retiring) (state : t.link.state ≠ .stopping) : WindowSettled t := by
  obtain ⟨⟨-, empty⟩, settled, -⟩ := h
  have clear := retiring_eq_false settled (empty calm.1 calm.2)
  exact ⟨⟨by simp [window], fun _ _ => window⟩, ⟨by simp [retiring, clear], fun stopping => absurd stopping state⟩, .inl (by simp [window])⟩

theorem window_eq_nil (h : WindowSettled s) (running : s.link.state ≠ .running) (stopping : s.link.state ≠ .stopping) :
    s.ret.window = [] := h.1.2 running stopping

/-- An entry to STOPPED from a link with an empty window (R29, R31). -/
theorem windowSettled_enterStopped (h : WindowSettled s) (empty : s.ret.window = []) (link : Link) (a : CommandStatus) :
    WindowSettled (({ s with link := link } : State).enterStopped a) :=
  have clear := retiring_eq_false h.2.1 empty
  settled_enterStopped (s := { s with link := link }) clear empty a

theorem windowSettled_present (h : WindowSettled s) (e : Event) : WindowSettled (s.present e) :=
  windowSettled_of_stand h (windowStand_present s e)

/-- A sense line's record is none of the window's. -/
theorem windowSettled_setSenseLine (h : WindowSettled s) (k : LineId) (c : SenseLine) : WindowSettled (s.setSenseLine k c) :=
  windowSettled_of_stand h ⟨rfl, rfl, rfl, rfl, rfl⟩

theorem windowSettled_presentEdge (h : WindowSettled s) (k : LineId) (e : Edge) (stamp : Option (FrameNo × Nat)) :
    WindowSettled (s.presentEdge k e stamp) :=
  windowSettled_present (windowSettled_setSenseLine h k _) _

theorem windowSettled_edgeInFrame (h : WindowSettled s) (k : LineId) (e : Edge) (offset : Nat) : WindowSettled (s.edgeInFrame k e offset) := by
  unfold State.edgeInFrame
  dsimp only
  split
  · exact windowSettled_setSenseLine h k _
  · exact windowSettled_presentEdge (windowSettled_setSenseLine h k _) _ _ _

theorem windowSettled_selectedEdge (h : WindowSettled s) (k : LineId) (e : Edge) (micros : Nat) :
    WindowSettled (s.selectedEdge k e micros) := by
  unfold State.selectedEdge
  split
  · split
    · exact windowSettled_edgeInFrame h _ _ _
    · exact windowSettled_presentEdge h _ _ _
  · exact h

/-- A report that serves a START starts frame 0 in an empty window (R28). -/
theorem windowSettled_triggerStart (h : WindowSettled s) (waiting : s.link.state = .waiting) (p : TriggerReport) :
    WindowSettled (s.triggerStart p) := by
  have empty := window_eq_nil h (by simp [waiting]) (by simp [waiting])
  have begun : WindowSettled { s with link.state := .running, link.timeout := none } :=
    windowSettled_calm h (by simp [waiting]) empty rfl (by simp)
  have served : WindowSettled (({ s with link.state := .running, link.timeout := none } : State).completeStart .ok) := by
    refine windowSettled_of_eq begun ?_ ?_ ?_ ?_ ⟨?_, ?_⟩
    all_goals rw [completeStart_frame, completeStart_link]
  have started := windowSettled_frameStart served (by rw [completeStart_link]) (f := 0)
    (.inr (by rw [completeStart_frame]; exact empty))
  unfold State.triggerStart
  dsimp only
  split
  · exact windowSettled_edgeInFrame started _ _ _
  · exact started

theorem windowSettled_takeReport (h : WindowSettled s) (p : TriggerReport) : WindowSettled (s.takeReport p) := by
  unfold State.takeReport State.triggerTooLate
  split
  · split
    · next serves => exact windowSettled_triggerStart h serves.1 p
    · split
      · exact windowSettled_presentEdge h _ _ _
      · exact h
  · exact h

/-- The last word sent, a STOPPING link passes to STOPPED when its window is empty (R32). -/
theorem windowSettled_sent (h : WindowSettled s) : WindowSettled (({ s with link.transmitting := false } : State).stopWhenDone) :=
  windowSettled_stopWhenDone (s := { s with link.transmitting := false }) h.1 h.2.1.1 h.2.2

theorem windowSettled_linkActs (h : WindowSettled s) (ready : s.host.engine = .ready) (acts : LinkActs s t) : WindowSettled t := by
  have leveled (k : LineId) (e : Edge) : WindowSettled (s.withLevel k e) := windowSettled_of_stand h ⟨rfl, rfl, rfl, rfl, rfl⟩
  cases acts with
  | startsFrame _ running _ => exact windowSettled_frameStart h running (.inl rfl)
  | endsTransmission _ =>
    rw [State.endTransmission, ready]
    exact windowSettled_sent h
  | arrives words ragged _ => exact windowSettled_takeArrival h words ragged
  | loops words _ _ =>
    exact windowSettled_takeArrival (s := { s with link.loopDue := false }) (windowSettled_of_eq h rfl rfl rfl rfl ⟨rfl, rfl⟩) words false
  | misses _ => exact windowSettled_resolveOldestMissing h
  | stops _ => exact windowSettled_stopWhenDone h.1 h.2.1.1 h.2.2
  | timesOut _ waiting => exact windowSettled_enterStopped h (window_eq_nil h (by simp [waiting]) (by simp [waiting])) s.link .timeout
  | changesLevel k e => exact leveled k e
  | triggers k e => exact windowSettled_of_stand (leveled k e) ⟨rfl, rfl, rfl, rfl, rfl⟩
  | selects k e micros => exact windowSettled_selectedEdge (leveled k e) k e micros
  | takesReport p rest _ =>
    exact windowSettled_takeReport (s := { s with lines.reports := rest }) (windowSettled_of_stand h ⟨rfl, rfl, rfl, rfl, rfl⟩) p

/-! ## The owners of the commands -/

/-- A swap in UNCONFIGURED or STOPPED finds the window empty (R75, R82). -/
theorem windowSettled_swap (h : WindowSettled s) (calm : s.link.state ≠ .running ∧ s.link.state ≠ .stopping) : WindowSettled s.swap := by
  have empty := window_eq_nil h calm.1 calm.2
  have window : s.swap.ret.window = [] := by rw [swap_ret, empty]
  have clear : s.swap.sched.retiring = false := not_windowHolds_of_empty empty _
  have state := swap_link s
  generalize s.swap = t at *
  exact ⟨⟨by simp [window], fun _ _ => window⟩, ⟨by simp [clear], fun stopping => absurd (state ▸ stopping) calm.2⟩,
    .inl (by simp [window])⟩

theorem windowStand_cancelOutstanding (s : State) : WindowStand s s.cancelOutstanding := by
  unfold State.cancelOutstanding
  split
  · exact .refl s
  · exact ⟨rfl, rfl, rfl, rfl, rfl⟩

theorem windowSettled_owned (h : WindowSettled s) {c : Command} (owned : Owned c s t) : WindowSettled t := by
  have stands {u : State} (k : WindowStand s u) : WindowSettled u := windowSettled_of_stand h k
  have ends {u : State} (hu : WindowSettled u) (status : CommandStatus) (result : CommandResult) :
      WindowSettled (u.endCommand c status result) := windowSettled_of_stand hu (windowStand_endCommand u c status result)
  have alike {u : State} (link : u.link.state = s.link.state ∧ u.link.frame = s.link.frame ∧ u.link.transmitting = s.link.transmitting)
      (ret : u.ret = s.ret) (sched : u.sched = s.sched) : WindowSettled u :=
    windowSettled_of_eq h (by rw [ret]) link.1 link.2.1 link.2.2 ⟨by rw [sched], by rw [sched]⟩
  cases owned with
  | ends status result => exact ends h _ _
  | configures k state =>
    have calm : s.link.state ≠ .running ∧ s.link.state ≠ .stopping := by rcases state with e | e <;> simp [e]
    have empty := window_eq_nil h calm.1 calm.2
    exact ends (u := { s with link := { s.link with config := some k, state := .stopped } })
      (windowSettled_calm h calm empty rfl (by simp)) _ _
  | startsNow state =>
    have calm : s.link.state ≠ .running ∧ s.link.state ≠ .stopping := by simp [state]
    have empty := window_eq_nil h calm.1 calm.2
    have accepted : WindowSettled { s.acceptStart with link.state := .running } := windowSettled_calm h calm empty rfl (by simp)
    have started : WindowSettled (State.frameStart { s.acceptStart with link.state := .running } 0) :=
      windowSettled_frameStart accepted rfl (.inr empty)
    exact ends started .ok .none
  | startsWaiting w timeout state =>
    have calm : s.link.state ≠ .running ∧ s.link.state ≠ .stopping := by simp [state]
    have empty := window_eq_nil h calm.1 calm.2
    exact windowSettled_calm h calm empty rfl (by simp [State.startWaiting])
  | stopsWaiting state => exact windowSettled_enterStopped h (window_eq_nil h (by simp [state]) (by simp [state])) _ _
  | stopsRunning state =>
    obtain ⟨⟨answered, -⟩, ⟨mark, -⟩, frames⟩ := h
    exact windowSettled_stopWhenDone
      (s := { s with link := { s.link with state := .stopping, stopCause := some .host, frameTimer := false, stop := some c } })
      ⟨answered, fun _ stopping => absurd rfl stopping⟩ mark frames
  | joinsStop _ _ => exact alike ⟨rfl, rfl, rfl⟩ rfl rfl
  | opens r i sh marker _ _ _ _ => cases marker <;> exact stands ⟨rfl, rfl, rfl, rfl, rfl⟩
  | closes i _ _ => exact stands ⟨rfl, rfl, rfl, rfl, rfl⟩
  | restarts i n _ _ => exact stands ⟨rfl, rfl, rfl, rfl, rfl⟩
  | queries i a => exact stands ⟨rfl, rfl, rfl, rfl, rfl⟩
  | holdsLoad a count basis _ _ => exact stands ⟨rfl, rfl, rfl, rfl, rfl⟩
  | performsLoad a count basis _ => exact stands ⟨rfl, rfl, rfl, rfl, rfl⟩
  | commits result _ _ stopped =>
    refine ends (windowSettled_swap h ?_) _ _
    rcases of_decide_eq_true stopped with e | e <;> simp [e]
  | armsSwap _ _ _ => exact stands ⟨rfl, rfl, rfl, rfl, rfl⟩
  | cancels _ =>
    exact ends (windowSettled_of_stand (s := { s with sched.swapArmed := false }) (stands ⟨rfl, rfl, rfl, rfl, rfl⟩)
      (windowStand_cancelOutstanding _)) _ _
  | selects r result => exact stands ⟨rfl, rfl, rfl, rfl, rfl⟩
  | posts e result => exact ends (windowSettled_present h e) _ _
  | armsCorrupt _ => exact alike ⟨rfl, rfl, rfl⟩ rfl rfl
  | armsDrop _ => exact alike ⟨rfl, rfl, rfl⟩ rfl rfl

/-! ## Every step -/

/-- In OFF the window is empty and the link as RESETTING left it (R20, R35). -/
theorem windowInv_offWhenQuiet (h : WindowInv s) (resetting : s.host.engine = .resetting) : WindowInv s.offWhenQuiet := by
  obtain ⟨-, -, unconfigured⟩ := (windowInv_iff_empty (by simp [resetting])).1 h
  unfold State.offWhenQuiet
  split
  · exact (windowInv_iff_empty (by simp)).2 ⟨rfl, rfl, fun _ => unconfigured (by simp [resetting])⟩
  · exact h

theorem windowInv_linkActs (h : WindowInv s) (acts : LinkActs s t) : WindowInv t := by
  have engine := linkActs_engine acts
  by_cases ready : s.host.engine = .ready
  · exact (windowInv_iff_settled (engine.trans ready)).2 (windowSettled_linkActs ((windowInv_iff_settled ready).1 h) ready acts)
  · obtain ⟨empty, clear, unconfigured⟩ := (windowInv_iff_empty ready).1 h
    refine (windowInv_iff_empty (by rwa [engine])).2 ?_
    rw [engine]
    rcases linkActs_of_not_ready acts ready with lines | ⟨calm, ended⟩ | ⟨fault, ended⟩
    · rw [lines]
      exact ⟨empty, clear, unconfigured⟩
    · rw [ended]
      exact ⟨empty, clear, unconfigured⟩
    · rw [ended]
      exact ⟨empty, clear, fun calm => absurd fault calm⟩

/-- Every change keeps the window in order. -/
theorem windowInv_acts (h : WindowInv s) (acts : Acts s t) : WindowInv t := by
  have stands {u : State} (k : WindowStand s u) : WindowInv u := windowInv_of_stand h k
  have faulted {u : State} (cause : FaultCause) : WindowInv (u.enterFault cause) :=
    (windowInv_iff_empty (by simp)).2 ⟨rfl, rfl, fun calm => absurd rfl calm⟩
  have kept (c : Command) (u : State) (k : WindowStand s u) (status : CommandStatus) (result : CommandResult) :
      WindowInv (u.endHeld c status result) := stands (k.trans (windowStand_endHeld u c status result))
  cases acts with
  | nothing => exact h
  | discards tag resetting => exact windowInv_offWhenQuiet (s := s.answered tag) (stands ⟨rfl, rfl, rfl, rfl, rfl⟩) resetting
  | answers tag _ => exact stands ⟨rfl, rfl, rfl, rfl, rfl⟩
  | writesHost w engine => exact stands ⟨engine, rfl, rfl, rfl, rfl⟩
  | loads off =>
    obtain ⟨empty, clear, unconfigured⟩ := (windowInv_iff_empty (by simp [off])).1 h
    exact (windowInv_iff_empty (by simp)).2 ⟨empty, clear, fun _ => unconfigured (by simp [off])⟩
  | faultsAtEnable cause _ => exact faulted cause
  | faults tag cause _ => exact faulted cause
  | resets _ =>
    exact windowInv_offWhenQuiet ((windowInv_iff_empty (by simp)).2 ⟨rfl, rfl, fun _ => rfl⟩) rfl
  | hardResets source levels after =>
    cases after
    exact (windowInv_iff_empty (by simp [State.reset])).2 ⟨rfl, rfl, fun _ => rfl⟩
  | readies words ring config loading _ =>
    obtain ⟨empty, clear, unconfigured⟩ := (windowInv_iff_empty (by simp [loading])).1 h
    have state := unconfigured (by simp [loading])
    refine (windowInv_iff_settled rfl).2 ⟨⟨?_, fun _ _ => empty⟩, ⟨?_, ?_⟩, .inl ?_⟩
    · simp [State.enterReady, empty]
    · simp [State.enterReady, clear]
    · simp [State.enterReady, state]
    · simp [State.enterReady, empty]
  | notifiesCommand v => exact stands (windowStand_takeCommandNotify s v)
  | acknowledges v => exact stands (windowStand_takeAcknowledge s v)
  | notifiesNoRing n v => exact stands (windowStand_present s _)
  | looks => exact stands (windowStand_lookForCommand s)
  | @takes c u taking owned =>
    have settled : WindowSettled s.afterTaking := windowSettled_of_stand ((windowInv_iff_settled taking.1).1 h) ⟨rfl, rfl, rfl, rfl, rfl⟩
    obtain ⟨-, host, -⟩ := seatStands_owned owned
    have ready : u.host.engine = .ready := by rw [host]; exact taking.1
    exact windowInv_of_stand ((windowInv_iff_settled ready).2 (windowSettled_owned settled owned)) (windowStand_lookForCommand u)
  | performsLoad a count basis _ _ _ => exact stands ⟨rfl, rfl, rfl, rfl, rfl⟩
  | takesChanges c working a count next entries _ _ _ =>
    exact stands (WindowStand.trans (t := s.answered .scheduleUnit) ⟨rfl, rfl, rfl, rfl, rfl⟩ (windowStand_takeChanges _ _ _ _ _ _ _))
  | failsLoad c result _ _ _ => exact kept c { s.answered .scheduleUnit with sched.load := .none } ⟨rfl, rfl, rfl, rfl, rfl⟩ _ _
  | endsQuery c status _ _ _ => exact kept c (s.answered .streamTable) ⟨rfl, rfl, rfl, rfl, rfl⟩ _ _
  | closes i c _ _ _ _ =>
    exact kept c ((({ s with freePool := s.freePool + (s.stream i).depth } : State).setStream i Stream.reset).unbindMarkers i)
      ⟨rfl, rfl, rfl, rfl, rfl⟩ _ _
  | restarts i c n _ _ _ _ => exact kept c (s.setStream i _) ⟨rfl, rfl, rfl, rfl, rfl⟩ _ _
  | writesRing =>
    unfold State.tryRingWrite
    split
    · split
      · exact stands ⟨rfl, rfl, rfl, rfl, rfl⟩
      · exact h
    · exact h
  | writtenRing _ _ =>
    exact stands (WindowStand.trans (t := { s.answered .completionUnit with comp := s.comp.recordWritten }) ⟨rfl, rfl, rfl, rfl, rfl⟩
      (windowStand_handOn _))
  | servesLoss _ _ => exact stands ⟨rfl, rfl, rfl, rfl, rfl⟩
  | servesCommand _ _ => exact stands (windowStand_readCommand s)
  | expiresHoldoff _ _ => exact stands ⟨rfl, rfl, rfl, rfl, rfl⟩
  | link acts => exact windowInv_linkActs h acts
  | stream acts => exact stands (windowStand_elsewhere (elsewhere_of_streamActs acts))

/-- Settles O58: every change keeps the window in order, its entries with their banks, and STOPPING with something left. -/
theorem returnWindowStaysInOrder : Obligations.ReturnWindowStaysInOrder := keptByEveryStep_of_acts (fun _ _ h => h) windowInv_acts

end
end Sys2Proof.Machine

/-!
The engine itself (Chapter 11): the step and the queue, the register window, the resets, and what an answer of the host bus comes to
in each engine state.
-/
namespace Sys2Proof.Machine

/-! ## The step and the queue -/

/-- Settles O1: the front of the queue decides the one match of the step. -/
theorem stepRunsFrontCommand : Obligations.StepRunsFrontCommand := by
  intro s c rest front
  rw [step, front]

/-- Every meaning answers a next state. -/
theorem everyCommandCompletes : Claims.EveryCommandCompletes := by
  intro c s
  cases c <;> exact ⟨_, rfl⟩

/-- No meaning writes the queue; the step drops its front. -/
theorem commandsLeaveTheQueue : Claims.CommandsLeaveTheQueue := by
  have kept : ∀ (c : Instr) (s t : State), exec c s = .next t → t.pending = s.pending :=
    fun _ _ _ h => (seatKept_acts (acts_of_exec h)).1
  refine ⟨kept, fun c rest s t front h => ?_⟩
  rw [stepRunsFrontCommand s c rest front] at h
  exact kept c _ t h

/-! ## Answers of the host bus -/

section
variable {s : State} {tag : Requester} {q : Request}

theorem request_of_inFlight (flying : s.inFlight tag = true) : ∃ q, s.request tag = some q := Option.isSome_iff_exists.mp flying

/-- Without a request of the tag the row of an answer changes nothing (R182). -/
theorem onAnswer_of_not_inFlight (quiet : s.inFlight tag = false) (k : Request → State → State) :
    s.onAnswer tag k = .next s := by
  have absent : s.request tag = none := Option.isNone_iff_eq_none.mp (by rw [← Option.not_isSome, ← State.inFlight, quiet]; rfl)
  rw [State.onAnswer, absent]

/-- Out of RESETTING the block that asked takes the answer (R182). -/
theorem onAnswer_of_request (request : s.request tag = some q) (running : s.host.engine ≠ .resetting)
    (k : Request → State → State) : s.onAnswer tag k = .next (k q (s.answered tag)) := by
  simp [State.onAnswer, request, running]

/-- A block that does not look at the request takes its answer by the state alone. -/
theorem onAnswer_const (flying : s.inFlight tag = true) (running : s.host.engine ≠ .resetting) (k : State → State) :
    (s.onAnswer tag fun _ => k) = .next (k (s.answered tag)) := by
  obtain ⟨q, request⟩ := request_of_inFlight flying
  exact onAnswer_of_request request running _

/-- In RESETTING the Port discards the answer (R188). -/
theorem onAnswer_of_resetting (flying : s.inFlight tag = true) (resetting : s.host.engine = .resetting)
    (k : Request → State → State) : s.onAnswer tag k = .next (s.discardInResetting tag) := by
  obtain ⟨q, request⟩ := request_of_inFlight flying
  simp [State.onAnswer, request, resetting]

/-- A record that comes with no READY engine reading is discarded (R154, R162). -/
theorem takeCommand_of_not_reading (flying : s.inFlight .commandProcessor = true) (running : s.host.engine ≠ .resetting)
    (idle : ¬ (s.host.engine = .ready ∧ s.proc.state = .reading)) (code : BitVec 8) (r : CommandRecord)
    (owner : Command → State → State) : s.takeCommand code r owner = .next (s.answered .commandProcessor) := by
  rw [State.takeCommand, onAnswer_const flying running]
  exact congrArg _ (if_neg idle)

/-- A data read's answer goes to the Fetch Unit. -/
theorem onReadAnswer_of_read {i : StreamId} {n : Nat} (request : s.request (.data i) = some q) (read : q.transfer = .read n)
    (running : s.host.engine ≠ .resetting) (k : Nat → State → State) :
    s.onReadAnswer i k = .next (k n (s.answered (.data i))) := by
  rw [State.onReadAnswer, onAnswer_of_request request running, read]

/-- A data write has no read to answer (log entry 8). -/
theorem onReadAnswer_of_write {i : StreamId} {ws : List Word} (request : s.request (.data i) = some q)
    (write : q.transfer = .write ws) (running : s.host.engine ≠ .resetting) (k : Nat → State → State) :
    s.onReadAnswer i k = .next s := by
  rw [State.onReadAnswer, onAnswer_of_request request running, write]

/-- A data write's answer goes to the Store Unit. -/
theorem onWriteAnswer_of_write {i : StreamId} {ws : List Word} (request : s.request (.data i) = some q)
    (write : q.transfer = .write ws) (running : s.host.engine ≠ .resetting) (k : State → State) :
    s.onWriteAnswer i k = .next (k (s.answered (.data i))) := by
  rw [State.onWriteAnswer, onAnswer_of_request request running, write]

/-- A data read has no write to answer (log entry 8). -/
theorem onWriteAnswer_of_read {i : StreamId} {n : Nat} (request : s.request (.data i) = some q)
    (read : q.transfer = .read n) (running : s.host.engine ≠ .resetting) (k : State → State) :
    s.onWriteAnswer i k = .next s := by
  rw [State.onWriteAnswer, onAnswer_of_request request running, read]

/-- A row that answers a request of a tag is an answer of the host bus with that tag (R182). -/
theorem exec_of_answers {c : Instr} (answer : answers c = some tag) (s : State) : ∃ k, exec c s = s.onAnswer tag k := by
  cases c
  case descriptorReadDone => cases answer; unfold exec execDescriptorReadDone; exact ⟨_, rfl⟩
  case descriptorReadError => cases answer; unfold exec execDescriptorReadError; exact ⟨_, rfl⟩
  case dataReadDone => cases answer; unfold exec execDataReadDone State.onReadAnswer; exact ⟨_, rfl⟩
  case dataReadError => cases answer; unfold exec execDataReadError State.onReadAnswer; exact ⟨_, rfl⟩
  case dataWriteDone => cases answer; unfold exec execDataWriteDone State.onWriteAnswer; exact ⟨_, rfl⟩
  case dataWriteError => cases answer; unfold exec execDataWriteError State.onWriteAnswer; exact ⟨_, rfl⟩
  case answerInResetting => cases answer; unfold exec execAnswerInResetting; exact ⟨_, rfl⟩
  all_goals cases answer <;> exact ⟨_, rfl⟩

end

/-! ## Answers to nothing (log entry 8) -/

/-- Without a request of its tag, of its kind or of its length, an answer is no answer, and nothing changes. -/
theorem answersWithoutRequestChangeNothing : Claims.AnswersWithoutRequestChangeNothing := by
  refine ⟨fun c s tag answer quiet => ?noRequest, fun s i q running request => ⟨fun ws write => ?readOfWrite, fun n read => ?writeOfRead,
    fun n samples read length ready state => ?samples⟩, fun s q c working a count next entries ready held request load length => ?entries⟩
  case noRequest =>
    obtain ⟨k, row⟩ := exec_of_answers answer s
    rw [row, onAnswer_of_not_inFlight quiet]
  case readOfWrite =>
    simp only [exec, execDataReadError, execDataReadDone, onReadAnswer_of_write request write running, implies_true, and_self]
  case writeOfRead =>
    simp only [exec, execDataWriteError, execDataWriteDone, onWriteAnswer_of_read request read running, and_self]
  case samples =>
    have issues : ((s.answered (.data i)).dataAnswered i |>.stream i).mayIssue = true := by
      simpa [State.dataAnswered, Stream.mayIssue] using state
    simp only [exec, execDataReadDone, onReadAnswer_of_read request read running]
    exact congrArg _ ((if_pos ⟨ready, issues⟩).trans (if_neg length))
  case entries =>
    have running : s.host.engine ≠ .resetting := by simp [ready]
    simp only [exec, execChangeListReadDone, State.onHeldAnswer, onAnswer_of_request request running]
    simp [ready, held, load, Ne.symm length]

/-- Settles O2: the queue, the completion of every row, and answers to nothing. -/
theorem commandsLeaveTheQueueAndComplete : Obligations.CommandsLeaveTheQueueAndComplete :=
  ⟨commandsLeaveTheQueue, everyCommandCompletes, answersWithoutRequestChangeNothing⟩

end Sys2Proof.Machine

/-!
The register window, the resets, ENABLE and the engine fault (Chapter 11, 12.2, 12.3).
-/
namespace Sys2Proof.Machine

/-! ## Reset values -/

@[simp] theorem stream_reset (i : StreamId) : State.reset.stream i = Stream.reset := by simp [State.stream, State.reset]

@[simp] theorem marker_reset (m : MarkerId) : State.reset.lines.markers[m] = Marker.reset := by simp [State.reset]

/-- The state of a hard reset is one that OFF is entered with (R188, R189). -/
theorem offEntered_reset : OffEntered State.reset State.reset :=
  ⟨rfl, rfl, rfl, rfl, stream_reset, rfl, rfl, rfl, marker_reset⟩

/-- Settles O3: the constants of the reset read field by field. -/
theorem resetValues : Obligations.ResetValues := by
  have sense : ∀ k : LineId, State.reset.lines.sense[k].select = .none ∧ State.reset.lines.sense[k].frameMark = false
      ∧ State.reset.lines.sense[k].suppressed = 0 := by
    intro k
    simp [State.reset, SenseLine.reset]
  exact ⟨rfl, rfl, rfl, rfl, offEntered_reset, rfl, rfl, rfl, rfl, rfl, rfl, rfl, rfl, rfl, rfl, rfl, rfl, rfl, rfl, rfl, rfl, rfl,
    rfl, rfl, rfl, rfl, rfl, rfl, rfl, rfl, rfl, rfl, rfl, rfl, sense, rfl, by decide⟩

/-! ## The register window -/

/-- While the pin is held nothing that depends on its release happens (R189). -/
theorem ifReleased_of_held {s : State} (held : s.host.resetHeld = true) (t : State) : s.ifReleased t = s := if_pos held

theorem ifReleased_self (s : State) : s.ifReleased s = s := ite_self s

theorem registerWriteKeepsBaseWords : Claims.RegisterWriteKeepsBaseWords := by
  refine fun s v => ⟨fun released => ⟨?low, ?high⟩, ?status, fun noEnable noReset => ?control, fun _ => rfl⟩
  case low => exact congrArg _ (ifReleased_of_released released _)
  case high => exact congrArg _ (ifReleased_of_released released _)
  case status => exact congrArg _ (ifReleased_self s)
  case control =>
    have plain : s.writeRegister .control v = s := by
      rw [State.writeRegister, noReset, noEnable, if_neg Bool.false_ne_true, if_neg Bool.false_ne_true]
    exact congrArg _ ((congrArg _ plain).trans (ifReleased_self s))

theorem heldResetPinIgnoresWrites : Claims.HeldResetPinIgnoresWrites := by
  intro s held
  have ignored (t : State) : (.next (s.ifReleased t) : Result) = .next s := congrArg _ (ifReleased_of_held held t)
  refine ⟨ignored _, ignored _, fun reg full v => ?_, fun v => ⟨ignored _, ignored _⟩, fun i v => ignored _, fun sel v => ignored _⟩
  cases full
  case true => exact ignored _
  case false => rfl

/-! ### The engine status word (12.2) -/

theorem engineCode_lt (e : EngineState) : e.code < 8 := by cases e <;> decide
theorem linkCode_lt (k : LinkState) : k.code < 8 := by cases k <;> decide
theorem faultCode_lt (c : FaultCause) : c.code < 8 := by cases c <;> decide
theorem stopCode_lt (c : Option StopCause) : stopCauseCode c < 4 := by
  cases c with
  | none => decide
  | some c => cases c <;> decide
theorem flag_lt (b : Bool) : flag b < 2 := by cases b <;> decide

/-- The status word as the number that its fields make. -/
theorem toNat_statusWord (s : State) :
    s.statusWord.toNat =
      s.host.engine.code + 2 ^ 4 * s.link.state.code + 2 ^ 8 * stopCauseCode s.link.stopCause
        + 2 ^ 12 * s.host.lastFault.code + 2 ^ 16 * flag s.interruptLine := by
  have engine := engineCode_lt s.host.engine
  have link := linkCode_lt s.link.state
  have stop := stopCode_lt s.link.stopCause
  have fault := faultCode_lt s.host.lastFault
  have line := flag_lt s.interruptLine
  have e0 : (place 0 s.host.engine.code).toNat = s.host.engine.code := toNat_place_zero (by omega)
  have e1 := toNat_or_place (x := place 0 s.host.engine.code) (lo := 4) (n := s.link.state.code) (by omega) (by omega)
  have e2 := toNat_or_place (lo := 8) (n := stopCauseCode s.link.stopCause) (x := _ ||| place 4 s.link.state.code)
    (by rw [e1]; omega) (by omega)
  have e3 := toNat_or_place (lo := 12) (n := s.host.lastFault.code) (x := _ ||| place 8 (stopCauseCode s.link.stopCause))
    (by rw [e2]; omega) (by omega)
  have e4 := toNat_or_place (lo := 16) (n := flag s.interruptLine) (x := _ ||| place 12 s.host.lastFault.code)
    (by rw [e3]; omega) (by omega)
  rw [State.statusWord, e4, e3, e2, e1, e0]

/-- Every bit that the table of 12.2 does not assign is 0. -/
theorem statusWord_unassigned (s : State) : s.statusWord &&& 0xFFFE8C88 = 0 := by
  have engine : place 0 s.host.engine.code &&& 0xFFFE8C88 = 0 := by cases s.host.engine <;> decide
  have link : place 4 s.link.state.code &&& 0xFFFE8C88 = 0 := by cases s.link.state <;> decide
  have stop : place 8 (stopCauseCode s.link.stopCause) &&& 0xFFFE8C88 = 0 := by
    cases s.link.stopCause with
    | none => decide
    | some c => cases c <;> decide
  have fault : place 12 s.host.lastFault.code &&& 0xFFFE8C88 = 0 := by cases s.host.lastFault <;> decide
  have line : place 16 (flag s.interruptLine) &&& 0xFFFE8C88 = 0 := by cases s.interruptLine <;> decide
  rw [State.statusWord]
  simp only [BitVec.and_or_distrib_right, engine, link, stop, fault, line, BitVec.or_self]

theorem registerReads : Claims.RegisterReads := by
  intro s
  have engine := engineCode_lt s.host.engine
  have link := linkCode_lt s.link.state
  have stop := stopCode_lt s.link.stopCause
  have fault := faultCode_lt s.host.lastFault
  have bits := toNat_statusWord s
  refine ⟨rfl, rfl, rfl, rfl, ?engine, ?link, ?stop, ?fault, ?line, statusWord_unassigned s⟩
  case line =>
    change s.statusWord.getLsbD 16 = true ↔ s.interruptLine = true
    rw [BitVec.getLsbD, Nat.testBit_eq_decide_div_mod_eq, decide_eq_true_eq, bits]
    cases s.interruptLine
    · simp [flag]; omega
    · simp [flag]; omega
  all_goals
    change field s.statusWord _ _ = _
    rw [field, Nat.shiftRight_eq_div_pow, bits]
    omega

/-- Settles O4. -/
theorem registerWindowAccess : Obligations.RegisterWindowAccess :=
  ⟨registerWriteKeepsBaseWords, heldResetPinIgnoresWrites, registerReads⟩

end Sys2Proof.Machine

/-!
ENABLE and the control area, the three errors that enter FAULT, the resets, and stray notifies (Chapters 10 and 11).
-/
namespace Sys2Proof.Machine

/-! ## Engine fault (R185, R186) -/

theorem markersOff_markers (s : State) (m : MarkerId) :
    s.markersOff.lines.markers[m] = { s.lines.markers[m] with active := false } := by
  simp [State.markersOff]

/-- What the entry to FAULT does is what the table of R186 gathers. -/
theorem faultEntered_enterFault (s : State) (cause : FaultCause) : FaultEntered cause s (s.enterFault cause) := by
  have running (state : LinkState) (h : state = .running ∨ state = .stopping) (k : Link) (hk : k.state = state) :
      k.atFault = { k with
        state := if k.transmitting then k.state else .stopped, frameTimer := false, stopCause := some .engineFault } := by
    rcases h with rfl | rfl <;> simp [Link.atFault, hk]
  refine ⟨rfl, rfl, rfl, rfl, rfl, rfl, rfl, rfl, rfl, rfl, markersOff_markers s, fun quiet => ?quiet, fun waiting => ?waiting,
    fun sending => running _ sending _ rfl⟩
  case quiet =>
    change s.link.atFault = s.link
    rcases quiet with h | h <;> simp [Link.atFault, h]
  case waiting =>
    change s.link.atFault = _
    simp [Link.atFault, waiting]

/-- Settles O7: each error answer goes to its block, whose test of the engine state holds. -/
theorem ringErrorsEnterFault : Obligations.RingErrorsEnterFault := by
  refine fun s => ⟨fun loading flying => ?_, fun ready flying => ?_, fun ready flying => ?_⟩
  · refine ⟨(s.answered .hostWindow).enterFault .controlRead, ?_, faultEntered_enterFault _ _⟩
    exact (onAnswer_const flying (by simp [loading]) _).trans (congrArg _ (if_pos loading))
  · refine ⟨(s.answered .commandProcessor).enterFault .commandRead, ?_, faultEntered_enterFault _ _⟩
    exact (onAnswer_const flying (by simp [ready]) _).trans (congrArg _ (if_pos ready))
  · refine ⟨(s.answered .completionUnit).enterFault .completionWrite, ?_, faultEntered_enterFault _ _⟩
    exact (onAnswer_const flying (by simp [ready]) _).trans (congrArg _ (if_pos ready))

/-! ## ENABLE (R183) -/

theorem enableStartsLoading : Claims.EnableStartsLoading := by
  intro s released
  have row : exec .enable s = .next s.takeEnable := congrArg _ (ifReleased_of_released released _)
  rw [row]
  refine ⟨fun off aligned => ?loads, fun off misaligned => ?faults, fun other => congrArg _ (if_neg other)⟩
  case loads => exact congrArg _ ((if_pos off).trans (if_pos aligned))
  case faults =>
    exact ⟨_, congrArg _ ((if_pos off).trans (if_neg misaligned)), faultEntered_enterFault s .controlInvalid⟩

/-! ## The control area (R184, R193) -/

/-- The ring sizes are the powers of two from 4 to 1024. -/
theorem mem_ringSizes_iff (n : Nat) : n ∈ ringSizes ↔ ∃ k, 2 ≤ k ∧ k ≤ 10 ∧ n = 2 ^ k := by
  have powers : ringSizes = (List.range' 2 9).map (2 ^ ·) := by decide
  rw [powers, List.mem_map]
  constructor
  · rintro ⟨k, hk, rfl⟩
    rw [List.mem_range'_1] at hk
    exact ⟨k, by omega, by omega, rfl⟩
  · rintro ⟨k, low, high, rfl⟩
    exact ⟨k, List.mem_range'_1.mpr (by omega), rfl⟩

/-- The completion ring sizes are the powers of two from 4 to 4096. -/
theorem mem_completionRingSizes_iff (n : Nat) : n ∈ completionRingSizes ↔ ∃ k, 2 ≤ k ∧ k ≤ 12 ∧ n = 2 ^ k := by
  have powers : completionRingSizes = (List.range' 2 11).map (2 ^ ·) := by decide
  rw [powers, List.mem_map]
  constructor
  · rintro ⟨k, hk, rfl⟩
    rw [List.mem_range'_1] at hk
    exact ⟨k, by omega, by omega, rfl⟩
  · rintro ⟨k, low, high, rfl⟩
    exact ⟨k, List.mem_range'_1.mpr (by omega), rfl⟩

/-- A control area is read when its six fields are valid, and only then. -/
theorem controlFields_eq (ws : Vector Word 8) [Decidable (controlAreaValid ws)] :
    controlFields ws =
      if controlAreaValid ws then
        some ({ base := address ws[0] ws[1], size := ws[4].toNat },
          { base := address ws[2] ws[3], size := ws[5].toNat, threshold := field ws[6] 0 8, holdoff := field ws[6] 16 16 })
      else none := by
  have same := mem_ringSizes_iff ws[4].toNat
  have same' := mem_completionRingSizes_iff ws[5].toNat
  simp only [controlFields, controlAreaValid, ← same, ← same']

theorem controlAreaTaken : Claims.ControlAreaTaken := by
  intro s ws loading flying
  have row : exec (.controlAreaLoaded ws) s = _ := onAnswer_const flying (by simp [loading]) _
  have loading' : (s.answered .hostWindow).host.engine = .loading := loading
  classical
  rw [row, if_pos loading', controlFields_eq]
  refine ⟨fun valid => ?ready, fun invalid => ?fault⟩
  case ready =>
    rw [if_pos valid]
    rfl
  case fault =>
    rw [if_neg invalid]
    exact ⟨_, rfl, faultEntered_enterFault _ _⟩

/-- Settles O6. -/
theorem enableLoadsTheControlArea : Obligations.EnableLoadsTheControlArea := ⟨enableStartsLoading, controlAreaTaken⟩

/-! ## Soft reset (R187, R188) -/

@[simp] theorem enterOff_stream (s : State) (i : StreamId) : s.enterOff.stream i = Stream.reset := by
  simp [State.stream, State.enterOff]

theorem offEntered_enterOff (s : State) : OffEntered s s.enterOff :=
  ⟨rfl, rfl, rfl, rfl, enterOff_stream s, rfl, rfl, rfl, fun m => by simp [State.enterOff, Marker.reset]⟩

/-- The levels of the sense lines are the lines' own and stay, all else of them is reset (R150). -/
theorem enterResetting_sense (s : State) (k : LineId) :
    s.enterResetting.lines.sense[k] =
      { select := .none, level := s.lines.sense[k].level, frameMark := false, suppressed := 0 } := by
  simp [State.enterResetting, State.senseReset, State.markersOff, SenseLine.reset]

theorem resettingEntered_enterResetting (s : State) : ResettingEntered s s.enterResetting :=
  ⟨rfl, rfl, rfl, rfl, rfl, rfl, rfl, rfl, rfl, rfl, enterResetting_sense s, markersOff_markers s.senseReset⟩

theorem softResetEntersResetting : Claims.SoftResetEntersResetting := by
  intro s released
  have row : exec .softReset s = .next s.takeReset := congrArg _ (ifReleased_of_released released _)
  rw [row]
  refine ⟨fun other busy => ?resetting, fun other quiet => ?off, fun resetting => congrArg _ (if_pos resetting)⟩
  case resetting =>
    exact ⟨_, congrArg _ ((if_neg other).trans (if_neg busy)), resettingEntered_enterResetting s⟩
  case off =>
    exact ⟨_, congrArg _ ((if_neg other).trans (if_pos quiet)), offEntered_enterOff _, rfl, rfl, enterResetting_sense s⟩

theorem answerInResettingIsDiscarded : Claims.AnswerInResettingIsDiscarded := by
  intro s tag
  have row : exec (.answerInResetting tag) s = s.onAnswer tag fun _ _ => s := by unfold exec execAnswerInResetting; rfl
  rw [row]
  refine ⟨fun resetting flying more => ?more, fun resetting flying last => ?last, fun other => ?other⟩
  case more => exact (onAnswer_of_resetting flying resetting _).trans (congrArg _ (if_neg more))
  case last =>
    refine ⟨(s.answered tag).enterOff, ?_, offEntered_enterOff (s.answered tag), rfl, rfl, rfl⟩
    exact (onAnswer_of_resetting flying resetting _).trans (congrArg _ (if_pos last))
  case other =>
    cases flying : s.inFlight tag
    · exact onAnswer_of_not_inFlight flying _
    · exact onAnswer_const flying other _

/-- Settles O9. -/
theorem softResetReachesOff : Obligations.SoftResetReachesOff := ⟨softResetEntersResetting, answerInResettingIsDiscarded⟩

/-! ## Hard reset (R189) -/

/-- Settles O10: the row writes the constants of the reset, the levels and the pin. -/
theorem hardResetTakesEffectAtOnce : Obligations.HardResetTakesEffectAtOnce := by
  refine ⟨fun s source levels => ⟨_, rfl, rfl, rfl, rfl, rfl, ?off, rfl, rfl, fun k => ?sense, rfl, ?status, ?pin⟩, fun _ => rfl⟩
  case off => exact ⟨rfl, rfl, rfl, rfl, stream_reset, rfl, rfl, rfl, marker_reset⟩
  case sense => simp [SenseLine.reset]
  case status => exact (show State.reset.statusWord = 0 by decide)
  case pin => rintro rfl; rfl

/-! ## Stray notifies (R174) -/

/-- A selector above 33 is no stream's. -/
theorem streamOf_of_gt {n : Nat} (above : 33 < n) : streamOf (n - 2) = none := dif_neg (by omega)

/-- Settles O14: no selector above 33 is the command ring's, the acknowledge's or a stream's. -/
theorem notifyWithoutRingIsStray : Obligations.NotifyWithoutRingIsStray := by
  intro s sel v released above
  have stray : s.takeNotify sel.toNat v = s.takeNoRingNotify sel.toNat v := by
    rw [State.takeNotify, if_neg (by omega), if_neg (by omega), streamOf_of_gt above]
  have row : exec (.notifyNoRing sel v) s = .next (s.takeNoRingNotify sel.toNat v) :=
    congrArg _ ((ifReleased_of_released released _).trans stray)
  rw [row]
  refine ⟨fun ready => ?ready, fun other => congrArg _ (if_neg other)⟩
  rw [State.takeNoRingNotify, if_pos ready, State.stray, present_of_ready ready]

end Sys2Proof.Machine

/-!
Answers of the host bus that come in FAULT are discarded (R59, R99, R118, R136, R162, R172).
-/
namespace Sys2Proof.Machine

section
variable {s : State} {tag : Requester} {q : Request} {i : StreamId}

/-- A stream's context written back as it reads is no change. -/
theorem setStream_same (s : State) (i : StreamId) : s.setStream i (s.stream i) = s := by
  have same : (s.setStream i (s.stream i)).streams = s.streams := streams_ext fun j => by
    rw [stream_setStream]
    split
    · next h => rw [h]
    · rfl
  calc s.setStream i (s.stream i) = { s with streams := (s.setStream i (s.stream i)).streams } := rfl
    _ = s := by rw [same]

/-- A block that acts in one engine state alone discards an answer in FAULT. -/
theorem onAnswer_discards (fault : s.host.engine = .fault) (flying : s.inFlight tag = true) {e : EngineState} (other : e ≠ .fault)
    (k : State → State) :
    (s.onAnswer tag fun _ t => if t.host.engine = e then k t else t) = .next { s with port := s.portWithout tag } := by
  rw [onAnswer_const flying (by simp [fault])]
  exact congrArg _ (if_neg fun h => other (h.symm.trans fault))

/-- Every row that answers a command read is discarded (R162). -/
theorem commandReadRows_discarded (fault : s.host.engine = .fault) (flying : s.inFlight .commandProcessor = true) (k : BitVec 8)
    (r : CommandRecord) :
    ∀ c ∈ commandReadRows k r, exec c s = .next { s with port := s.portWithout .commandProcessor } := by
  have taken (code : BitVec 8) (owner : Command → State → State) :
      s.takeCommand code r owner = .next { s with port := s.portWithout .commandProcessor } :=
    takeCommand_of_not_reading flying (by simp [fault]) (by simp [fault]) code r owner
  have error : execCommandReadError s = .next { s with port := s.portWithout .commandProcessor } :=
    onAnswer_discards fault flying (e := .ready) (by decide) _
  simp only [commandReadRows, List.forall_mem_cons, List.not_mem_nil, false_imp_iff, implies_true, and_true, exec, error, taken,
    execUnknownCommand, execLinkConfigure, execLinkStart, execLinkStop, execOpenStream, execCloseStream, execRestartStream,
    execQueryStream, execLoadSchedule, execCommitSchedule, execCancelCommit, execSetSense, execPostEvent, execInjectFault]

/-- A held command's answer is discarded (R58, R73). -/
theorem onHeldAnswer_discards (fault : s.host.engine = .fault) (flying : s.inFlight tag = true)
    (k : Command → Request → State → State) : s.onHeldAnswer tag k = .next { s with port := s.portWithout tag } := by
  obtain ⟨q, request⟩ := request_of_inFlight flying
  rw [State.onHeldAnswer, onAnswer_of_request request (by simp [fault])]
  exact congrArg _ (if_neg (by simp [fault]))

/-- A descriptor's answer clears the in-flight mark alone (R59). -/
theorem descriptorRows_discarded (fault : s.host.engine = .fault) (flying : s.inFlight (.descriptor i) = true) (ws : Vector Word 4) :
    exec (.descriptorReadError i) s = .next ((s.answered (.descriptor i)).descriptorAnswered i)
    ∧ exec (.descriptorReadDone i ws) s = .next ((s.answered (.descriptor i)).descriptorAnswered i) := by
  simp only [exec, execDescriptorReadError, execDescriptorReadDone, onAnswer_const flying (by simp [fault] : s.host.engine ≠ .resetting)]
  have frozen : ((s.answered (.descriptor i)).descriptorAnswered i).host.engine ≠ .ready := by
    rw [State.descriptorAnswered, setStream_host, answered_host, fault]; decide
  exact ⟨congrArg _ (if_neg frozen), congrArg _ (if_neg fun h => frozen h.1)⟩

theorem dataAnswered_frozen (fault : s.host.engine = .fault) :
    ((s.answered (.data i)).dataAnswered i).host.engine ≠ .ready := by
  rw [State.dataAnswered, setStream_host, answered_host, fault]; decide

/-- A data read's answer clears the in-flight mark alone (R118). -/
theorem dataReadRows_discarded (fault : s.host.engine = .fault) (request : s.request (.data i) = some q) {n : Nat}
    (read : q.transfer = .read n) (ws : List Word) :
    exec (.dataReadDone i ws) s = .next ((s.answered (.data i)).dataAnswered i)
    ∧ exec (.dataReadError i) s = .next ((s.answered (.data i)).dataAnswered i) := by
  simp only [exec, execDataReadError, execDataReadDone, onReadAnswer_of_read request read (by simp [fault])]
  exact ⟨congrArg _ (if_neg fun h => dataAnswered_frozen fault h.1), congrArg _ (if_neg (dataAnswered_frozen fault))⟩

/-- A data write's answer clears the in-flight mark alone (R136). -/
theorem dataWriteRows_discarded (fault : s.host.engine = .fault) (request : s.request (.data i) = some q) {ws : List Word}
    (write : q.transfer = .write ws) :
    exec (.dataWriteDone i) s = .next ((s.answered (.data i)).dataAnswered i)
    ∧ exec (.dataWriteError i) s = .next ((s.answered (.data i)).dataAnswered i) := by
  simp only [exec, execDataWriteError, execDataWriteDone, onWriteAnswer_of_write request write (by simp [fault])]
  refine ⟨?_, congrArg _ (if_neg (dataAnswered_frozen fault))⟩
  cases size : ((s.answered (.data i)).stream i).dataInFlight with
  | some n => exact congrArg _ (if_neg (by simp [fault]))
  | none =>
    have same : (s.answered (.data i)).dataAnswered i = s.answered (.data i) := by
      rw [State.dataAnswered, ← size, setStream_same]
    rw [same]

end

/-- Settles O8: each block tests the engine state before it acts, and of a stream's answer the in-flight mark alone is cleared first. -/
theorem answersInFaultAreDiscarded : Obligations.AnswersInFaultAreDiscarded := by
  intro s fault
  refine ⟨fun flying ws => ⟨?_, ?_⟩, fun flying => ⟨?_, ?_⟩, fun flying k r => commandReadRows_discarded fault flying k r,
    fun flying ws => ?schedule, fun flying b => ?snapshot, fun i => ⟨fun flying c t row post => ?descriptor, fun q t request post =>
      ⟨fun n ws read => ?read, fun ws write => ?write⟩⟩⟩
  · simp only [exec, execControlAreaLoaded]; exact onAnswer_discards fault flying (e := .loading) (by decide) _
  · simp only [exec, execControlReadError]; exact onAnswer_discards fault flying (e := .loading) (by decide) _
  · simp only [exec, execRingWriteDone]; exact onAnswer_discards fault flying (e := .ready) (by decide) _
  · simp only [exec, execRingWriteError]; exact onAnswer_discards fault flying (e := .ready) (by decide) _
  case schedule =>
    simp only [exec, execChangeListReadDone, execChangeListReadError, onHeldAnswer_discards fault flying, and_self]
  case snapshot => simp only [exec, execSnapshotWriteDone, onHeldAnswer_discards fault flying]
  case descriptor =>
    subst post
    rcases row with rfl | ⟨ws, rfl⟩
    · exact (descriptorRows_discarded fault flying #v[0, 0, 0, 0]).1
    · exact (descriptorRows_discarded fault flying ws).2
  case read => exact post ▸ dataReadRows_discarded fault request read ws
  case write => exact post ▸ dataWriteRows_discarded fault request write

end Sys2Proof.Machine

/-!
The entry to STOPPED (R32) in the words of the statements, and the rows that make it.
-/
namespace Sys2Proof.Machine

/-! ## The records of an entry to STOPPED -/

/-- The Completion Unit after records that each fill a reservation (R158). -/
def Completion.filled (c : Completion) (records : List Record) : Completion :=
  { c with holding := c.holding ++ records, reservations := c.reservations - records.length }

@[simp] theorem filled_nil (c : Completion) : c.filled [] = c := by simp [Completion.filled]

theorem filled_filled (c : Completion) (first second : List Record) :
    (c.filled first).filled second = c.filled (first ++ second) := by
  simp [Completion.filled, Nat.sub_sub]

/-- The record of the START that an entry to STOPPED completes. -/
def startRecords (s : State) (a : CommandStatus) : List Record := (s.link.start.map fun c => Record.commandDone c a .none).toList

/-- The record of the COMMIT whose armed swap is performed. -/
def swapRecords (s : State) (first : Option FrameNo) : List Record :=
  if s.sched.swapArmed then
    (s.sched.commit.map fun c => Record.commandDone c .ok (.swapped (s.sched.generation + 1) first)).toList
  else []

/-- The record of the STOP that an entry to STOPPED completes. -/
def stopRecords (s : State) : List Record := (s.link.stop.map fun c => Record.commandDone c .ok .none).toList

theorem stoppedRecords_eq (s : State) (a : CommandStatus) :
    stoppedRecords s a = startRecords s a ++ swapRecords s none ++ stopRecords s := by
  unfold stoppedRecords startRecords swapRecords stopRecords
  cases s.link.start <;> cases s.sched.swapArmed <;> cases s.sched.commit <;> cases s.link.stop <;> rfl

theorem stopRecorded_comp (s : State) (a : CommandStatus) : (stopRecorded s a).comp = s.comp.filled (stoppedRecords s a) := rfl

/-- A START's completion fills its reservation (R32, step 1). -/
theorem completeStart_comp (s : State) (a : CommandStatus) : (s.completeStart a).comp = s.comp.filled (startRecords s a) := by
  unfold State.completeStart startRecords
  cases s.link.start with
  | none => simp
  | some c => rfl

/-- A STOP's completion fills its reservation (R32, step 4). -/
theorem completeStop_comp (s : State) : s.completeStop.comp = s.comp.filled (stopRecords s) := by
  unfold State.completeStop stopRecords
  cases s.link.stop with
  | none => simp
  | some c => rfl

/-- The COMMIT of an armed swap fills its reservation (R78). -/
theorem performArmedSwap_comp (s : State) (first : Option FrameNo) :
    (s.performArmedSwap first).comp = s.comp.filled (swapRecords s first) := by
  unfold State.performArmedSwap swapRecords
  cases s.sched.swapArmed with
  | false => simp
  | true =>
    cases s.sched.commit with
    | none => simp [swap_comp]
    | some c => simp [State.complete, Completion.filled, swap_comp]

/-! ## An event presented, by the Completion Unit alone -/

/-- What an event comes to is decided by the Completion Unit and the engine state. -/
theorem afterEvent_comp_congr {s t : State} (comp : s.comp = t.comp) (e : Event) : (s.afterEvent e).comp = (t.afterEvent e).comp := by
  have free : s.freePlace = t.freePlace := by rw [State.freePlace, State.placesInUse, comp]; rfl
  rw [State.afterEvent, State.afterEvent, free]
  cases t.freePlace <;> simp [comp]

/-! ## The entry to STOPPED -/

section
variable {s : State}

/-- LINK_DOWN is presented for the cause RETURN_FAULT alone (R32, step 5). -/
theorem presentLinkDown_comp (ready : s.host.engine = .ready) :
    s.presentLinkDown.comp =
      (if s.link.stopCause = some .returnFault then s.afterEvent (.linkDown .returnFault s.link.frame s.link.badRun) else s).comp := by
  unfold State.presentLinkDown
  cases s.link.stopCause with
  | none => rfl
  | some cause => cases cause <;> simp [present_of_ready ready]

/-- The state before LINK_DOWN of an entry to STOPPED. -/
def State.settledStop (s : State) (a : CommandStatus) : State :=
  ((((({ s with link.state := .stopped, link.timeout := none, lines.watch := none } : State).completeStart a).performArmedSwap
    none).markersOff).completeStop)

theorem enterStopped_eq (s : State) (a : CommandStatus) : s.enterStopped a = (s.settledStop a).presentLinkDown := rfl

/-- Each group of the state before LINK_DOWN, as the steps of R32 leave it. -/
theorem settledStop_groups (s : State) (a : CommandStatus) :
    (s.settledStop a).host = s.host ∧ (s.settledStop a).port = s.port ∧ (s.settledStop a).proc = s.proc
    ∧ (s.settledStop a).freePool = s.freePool ∧ (s.settledStop a).ret = s.ret
    ∧ (s.settledStop a).comp = s.comp.filled (stoppedRecords s a)
    ∧ (s.settledStop a).link = { s.link with state := .stopped, timeout := none, start := none, stop := none }
    ∧ (s.settledStop a).lines =
        { s.lines with watch := none, markers := Vector.ofFn fun m => { s.lines.markers[m] with active := false } }
    ∧ (s.settledStop a).sched = (if s.sched.swapArmed then { s.scheduleSwapped with commit := none } else s.sched)
    ∧ ∀ i : StreamId, (s.settledStop a).stream i =
        if s.sched.swapArmed then (s.stream i).moved (s.sched.pending.names i) else s.stream i := by
  let waits : State := { s with link.state := .stopped, link.timeout := none, lines.watch := none }
  have hs := completeStart_frame waits a
  have starts := completeStart_comp waits a
  have startLink := completeStart_link waits a
  unfold State.settledStop
  generalize State.completeStart _ a = u at *
  have hw := performArmedSwap_frame u none
  have swaps := performArmedSwap_comp u none
  obtain ⟨sched, streams⟩ := performArmedSwap_moves u none
  generalize State.performArmedSwap u none = v at *
  have stops := completeStop_comp v.markersOff
  have hstop := completeStop_frame v.markersOff
  have stopLink := completeStop_link v.markersOff
  generalize v.markersOff.completeStop = w at *
  have us : u.sched = s.sched := by rw [hs]
  have ust (i : StreamId) : u.stream i = s.stream i := by rw [hs]; rfl
  have ur : u.ret = s.ret := by rw [hs]
  have vl : v.link = u.link := by rw [hw]
  have vlines : v.lines = waits.lines := by rw [hw, hs]
  have ws : w.sched = v.sched := by rw [hstop]; rfl
  have wst (i : StreamId) : w.stream i = v.stream i := by rw [hstop]; rfl
  refine ⟨?host, ?port, ?proc, ?pool, ?ret, ?comp, ?link, ?lines, ?sched, fun i => ?streams⟩
  case host => rw [hstop, State.markersOff, hw, hs]
  case port => rw [hstop, State.markersOff, hw, hs]
  case proc => rw [hstop, State.markersOff, hw, hs]
  case pool => rw [hstop, State.markersOff, hw, hs]
  case ret => rw [hstop, State.markersOff, hw, hs]
  case link => rw [stopLink]; change { v.link with stop := none } = _; rw [vl, startLink]
  case lines =>
    rw [hstop]
    change { v.lines with markers := Vector.ofFn fun m => { v.lines.markers[m] with active := false } } = _
    rw [vlines]
  case sched =>
    rw [ws, sched, us, State.scheduleSwapped, State.scheduleSwapped, us, ur]
  case streams => rw [wst, streams, us, ust]
  case comp =>
    have records : v.markersOff.comp = v.comp := rfl
    have swapped : swapRecords u none = swapRecords s none := by rw [swapRecords, us]; rfl
    have stopped : stopRecords v.markersOff = stopRecords s := by
      have stop : v.markersOff.link.stop = s.link.stop := by
        change v.link.stop = _
        rw [vl, startLink]
      rw [stopRecords, stop, stopRecords]
    rw [stops, records, swaps, starts, swapped, stopped, filled_filled, filled_filled, stoppedRecords_eq, ← List.append_assoc]
    rfl

/-- An entry to STOPPED in READY is the one that the statements describe (R32). -/
theorem stoppedEntered_enterStopped (ready : s.host.engine = .ready) (a : CommandStatus) : StoppedEntered s (s.enterStopped a) a := by
  obtain ⟨host, port, proc, pool, ret, comp, link, lines, sched, streams⟩ := settledStop_groups s a
  rw [enterStopped_eq]
  have frame := presentLinkDown_frame (s.settledStop a)
  have down := presentLinkDown_comp (s := s.settledStop a) (by rw [host, ready])
  generalize (s.settledStop a).presentLinkDown = t at *
  have ts (i : StreamId) : t.stream i = (s.settledStop a).stream i := by rw [frame]; rfl
  refine ⟨by rw [frame, host], by rw [frame, port], by rw [frame, proc], by rw [frame, pool], by rw [frame, ret], ?comp,
    by rw [frame, link], by rw [frame, lines], by rw [frame, lines], by rw [frame, lines], fun m => ?marker, by rw [frame, sched],
    fun i => by rw [ts, streams]⟩
  case marker => rw [frame, lines]; simp
  case comp =>
    rw [down, link]
    dsimp only
    split
    · exact afterEvent_comp_congr (comp.trans (stopRecorded_comp s a).symm) _
    · exact comp

/-! ## The timeout and the passage from STOPPING (R29, R32, R34) -/

theorem timeoutEndsWaiting : Claims.TimeoutEndsWaiting :=
  fun _ => ⟨fun ready waiting running => ⟨_, congrArg Host.Outcome.next (if_pos ⟨ready, waiting, running⟩), stoppedEntered_enterStopped ready .timeout⟩,
    fun other => congrArg Host.Outcome.next (if_neg other)⟩

/-- A STOPPING link with the window empty and no frame in transmission enters STOPPED (R32). -/
theorem stopWhenDone_of_done (stopping : s.link.state = .stopping) (empty : s.ret.window = []) (sent : s.link.transmitting = false) :
    s.stopWhenDone = s.enterStopped .cancelled := by
  rcases stopWhenDone_cases s with ⟨-, -, -, h⟩ | ⟨h, -⟩
  · exact h
  · exact absurd ⟨stopping, empty, sent⟩ h

/-- Any other link stays as it is (R32). -/
theorem stopWhenDone_of_not_done (h : ¬ (s.link.state = .stopping ∧ s.ret.window = [] ∧ s.link.transmitting = false)) :
    s.stopWhenDone = s := by
  rcases stopWhenDone_cases s with ⟨stopping, empty, sent, -⟩ | ⟨-, h'⟩
  · exact absurd ⟨stopping, empty, sent⟩ h
  · exact h'

/-- The end of a transmission in READY (R32). -/
theorem endTransmission_of_ready (ready : s.host.engine = .ready) :
    s.endTransmission = ({ s with link.transmitting := false } : State).stopWhenDone := by
  simp only [State.endTransmission, ready]

theorem stoppingEndsInStopped : Claims.StoppingEndsInStopped := by
  refine fun s => ⟨fun ready stopping empty sent => ?row, fun ready stopping empty sending => ?sentLast,
    fun ready left sending => ⟨?stays, ?rowStays⟩, fun fault state sending => ?fault, fun sent => congrArg Host.Outcome.next (if_neg (by simp [sent]))⟩
  case row =>
    refine ⟨_, congrArg Host.Outcome.next ((if_pos ready).trans (stopWhenDone_of_done stopping empty sent)), stoppedEntered_enterStopped ready _⟩
  case sentLast =>
    refine ⟨({ s with link.transmitting := false } : State).enterStopped .cancelled, congrArg Host.Outcome.next ?_,
      stoppedEntered_enterStopped (s := { s with link.transmitting := false }) ready .cancelled⟩
    rw [if_pos sending, endTransmission_of_ready ready]
    exact stopWhenDone_of_done stopping empty rfl
  case stays =>
    refine congrArg Host.Outcome.next ((if_pos sending).trans ((endTransmission_of_ready ready).trans (stopWhenDone_of_not_done ?_)))
    rintro ⟨stopping, empty, -⟩
    exact left.elim (fun h => h stopping) (fun h => h empty)
  case rowStays =>
    refine congrArg Host.Outcome.next ((if_pos ready).trans (stopWhenDone_of_not_done ?_))
    rintro ⟨stopping, empty, -⟩
    exact left.elim (fun h => h stopping) (fun h => h empty)
  case fault =>
    refine congrArg Host.Outcome.next ((if_pos sending).trans ?_)
    rcases state with h | h <;> simp [State.endTransmission, fault, Link.stopInFault, h]

/-- Settles O22. -/
theorem entriesToStopped : Obligations.EntriesToStopped := ⟨timeoutEndsWaiting, stoppingEndsInStopped⟩

/-! ## LINK STOP (R30, R31) -/

variable {r : CommandRecord}

/-- The row takes its record, acts, and the processor looks for the next one (R153 to R155). -/
theorem exec_linkStop_of_taking (taking : s.Taking) :
    exec (.linkStop r) s = .next (s.afterTaking.linkStop (s.taken 0x03 r)).looked := by
  rw [← lookForCommand_eq_looked]
  exact takeCommand_of_taking taking 0x03 r State.linkStop

theorem linkStopByState : Claims.LinkStopByState := by
  intro s r taking
  have idle := afterTaking_proc_state s
  rw [exec_linkStop_of_taking taking]
  refine ⟨fun state => ?stopped, fun running left => ?running, fun stopping free => ?joins, fun stopping taken => ?busy⟩
  case stopped =>
    rcases state with h | h <;> simp [State.linkStop, h, endPlain_of_idle _ _ _ idle]
  case running =>
    have stays : ∀ t : State, t.ret.window = s.ret.window → t.link.transmitting = s.link.transmitting → t.stopWhenDone = t := by
      refine fun t window sending => stopWhenDone_of_not_done ?_
      rintro ⟨-, empty, sent⟩
      exact left.elim (fun h => h (window ▸ empty)) (fun h => by simp [← sending, sent] at h)
    simp only [State.linkStop, afterTaking_link, running]
    rw [stays]
    · rfl
    · rfl
  case joins => simp [State.linkStop, stopping, free]
  case busy =>
    obtain ⟨c, stop⟩ := Option.isSome_iff_exists.mp taken
    simp [State.linkStop, stopping, stop, endPlain_of_idle _ _ _ idle]

theorem linkStopStopsAtOnce : Claims.LinkStopStopsAtOnce := by
  intro s r taking running empty sent
  let stopping : State :=
    { s.afterTaking with
      link.state := .stopping, link.frameTimer := false, link.stopCause := some .host, link.stop := some (s.taken 0x03 r) }
  refine ⟨stopping.enterStopped .cancelled, ?_, stoppedEntered_enterStopped (s := stopping) taking.1 .cancelled⟩
  rw [exec_linkStop_of_taking taking]
  simp only [State.linkStop, afterTaking_link, running]
  exact congrArg (fun t : State => Host.Outcome.next t.looked) (stopWhenDone_of_done (s := stopping) rfl empty sent)

theorem linkStopEndsWaiting : Claims.LinkStopEndsWaiting := by
  intro s r taking waiting
  let stops : State := { s.afterTaking with link.stopCause := some .host, link.stop := some (s.taken 0x03 r) }
  refine ⟨stops.enterStopped .cancelled, ?_, stoppedEntered_enterStopped (s := stops) taking.1 .cancelled⟩
  rw [exec_linkStop_of_taking taking]
  simp only [State.linkStop, afterTaking_link, waiting]
  rfl

/-- Settles O21. -/
theorem linkStopInEveryState : Obligations.LinkStopInEveryState := ⟨linkStopByState, linkStopStopsAtOnce, linkStopEndsWaiting⟩

end

end Sys2Proof.Machine

/-!
The state after reset, what the Return Unit disregards, and the commands that end at once or wait: UNKNOWN_COMMAND, INJECT FAULT and
LINK START.
-/
namespace Sys2Proof.Machine

/-! ## The invariants of the reset state -/

/-- Settles O54: after a reset there is no record, no stream, no bank and no frame for an invariant to speak of. -/
theorem resetSatisfiesTheInvariants : Obligations.ResetSatisfiesTheInvariants := by
  have closed (i : StreamId) : (State.reset.stream i).state = .closed ↔ (State.reset.stream i).shape = none := by
    simp [Stream.reset]
  have streams : StreamsInv State.reset := streamsInv_reset rfl rfl
  obtain ⟨held, placed⟩ := banksKept_reset (t := State.reset) rfl rfl rfl
  have shapes : ShapesInv State.reset := fun i => by rw [stream_reset]; simp [Stream.shaped, Stream.reset]
  have banks : BanksInv State.reset := banksInv_iff.2 ⟨held, placed, shapes⟩
  refine ⟨?places, ?ring, stagingInv_reset rfl rfl rfl, ?window, streams, banks.1, banks, ?claims, ?posted⟩
  case places => exact ⟨by decide, by decide, by decide, by decide⟩
  case ring => exact ⟨trivial, by decide, by decide, by decide, by decide⟩
  case window => exact (windowInv_iff_empty (by decide)).2 ⟨rfl, rfl, fun _ => rfl⟩
  case claims => exact ⟨streams, by decide, closed, fun _ _ _ => noClaim_reset rfl rfl rfl⟩
  case posted => intro ready; cases ready

/-! ## What the Return Unit disregards (R5, R17, R19) -/

section
variable {s : State} {k : LinkConfig}

theorem takesArrivals_iff (s : State) :
    s.takesArrivals = true ↔ s.host.engine = .ready ∧ (s.link.state = .running ∨ s.link.state = .stopping) := by
  simp [State.takesArrivals]

theorem isInternal_of_config (config : s.link.config = some k) : s.link.isInternal = decide (k.mode = .internal) := by
  simp [Link.isInternal, config]

/-- An armed DROP_RETURN discards the arrival unchecked and is disarmed (R19). -/
theorem takeArrival_of_armed (armed : s.link.dropReturn = true) (words : List Word) (ragged : Bool) :
    s.takeArrival words ragged = { s with link.dropReturn := false } := if_pos armed

end

/-- Settles O28: each row tests R5 and the loop mode first, and DROP_RETURN comes before the check. -/
theorem returnsDisregarded : Obligations.ReturnsDisregarded := by
  intro s words ragged
  refine ⟨fun off => ?off, fun k config => ⟨fun mode => ?lane, fun mode => ?loop, fun ready state armed => ⟨fun mode => ?dropLane,
    fun mode due sent frame => ?dropLoop⟩⟩⟩
  case off =>
    have deaf : ¬ s.takesArrivals = true := by
      rw [takesArrivals_iff]
      rintro ⟨ready, state⟩
      exact off.elim (fun h => h ready) (fun h => state.elim h.1 h.2)
    exact ⟨congrArg Host.Outcome.next (if_neg fun h => deaf h.1), congrArg Host.Outcome.next (if_neg fun h => deaf h.1),
      congrArg Host.Outcome.next (if_neg deaf)⟩
  case lane =>
    refine congrArg Host.Outcome.next (if_neg fun h => ?_)
    simp [isInternal_of_config config, mode] at h
  case loop =>
    refine congrArg Host.Outcome.next (if_neg fun h => ?_)
    simp [isInternal_of_config config, mode] at h
  case dropLane =>
    have takes := (takesArrivals_iff s).2 ⟨ready, state⟩
    have external : s.link.isInternal = false := by simp [isInternal_of_config config, mode]
    exact congrArg Host.Outcome.next ((if_pos ⟨takes, external⟩).trans (takeArrival_of_armed armed words ragged))
  case dropLoop =>
    have takes := (takesArrivals_iff s).2 ⟨ready, state⟩
    have internal : s.link.isInternal = true := by simp [isInternal_of_config config, mode]
    refine congrArg Host.Outcome.next ((if_pos ⟨takes, internal, due, sent⟩).trans ?_)
    rw [State.loopReturn, frame]
    exact takeArrival_of_armed (s := { s with link.loopDue := false }) armed words false

/-! ## The read of a command record (R153, R155) -/

section
variable {s : State} {r : CommandRecord}

theorem commandReadBegins : Claims.CommandReadBegins := by
  refine fun s ring => ⟨fun ready idle posted held => ⟨fun free => ?reads, fun full => ?waits⟩, fun other => ?none⟩
  all_goals
    change Host.Outcome.next s.lookForCommand = _
  case reads =>
    have ringed : s.proc.ring.isSome := by rw [held]; rfl
    rw [State.lookForCommand, if_pos ⟨ready, ringed, idle, posted⟩, State.beginCommand, if_pos free, readCommand_eq held]
    rfl
  case waits =>
    have ringed : s.proc.ring.isSome := by rw [held]; rfl
    rw [State.lookForCommand, if_pos ⟨ready, ringed, idle, posted⟩, State.beginCommand, if_neg (by simp [full])]
  case none =>
    rw [State.lookForCommand, if_neg fun ⟨ready, _, idle, posted⟩ => other ⟨ready, idle, posted⟩]

theorem unknownCommandIsAnswered : Claims.UnknownCommandIsAnswered := by
  intro s code r taking
  have row : exec (.unknownCommand code r) s = _ := takeCommand_of_taking taking code r fun c t => t.endPlain c .unknownCommand
  rw [row, lookForCommand_eq_looked, endPlain_of_idle _ _ _ (afterTaking_proc_state s)]

/-- Settles O15. -/
theorem commandRecordsAreRead : Obligations.CommandRecordsAreRead := ⟨commandReadBegins, unknownCommandIsAnswered⟩

/-! ## INJECT FAULT (R161) -/

/-- The row takes its record, acts, and the processor looks for the next one (R153 to R155). -/
theorem exec_injectFault_of_taking (taking : s.Taking) :
    exec (.injectFault r) s = .next (s.afterTaking.injectFault r (s.taken 0x41 r)).looked := by
  rw [← lookForCommand_eq_looked]
  exact takeCommand_of_taking taking 0x41 r (State.injectFault r)

/-- Settles O17: the kind chooses the arm, and each arm is judged in the same order. -/
theorem injectFaultArms : Obligations.InjectFaultArms := by
  intro s r taking
  have ends := fun c status => endPlain_of_idle s.afterTaking c status (afterTaking_proc_state s)
  have different : (1 : Word) ≠ 0 := by decide
  rw [exec_injectFault_of_taking taking]
  have link := afterTaking_link s
  rw [← link]
  refine ⟨fun other other' => ?kind, fun kind state => ?state, fun armed running => ?armed, fun zero running clear => ?corrupt,
    fun one running clear => ?drop⟩
  case kind => rw [State.injectFault, if_neg other, if_neg other', ends]
  case state =>
    rcases kind with zero | one
    · rw [State.injectFault, if_pos zero, if_pos state, ends]
    · rw [State.injectFault, if_neg (one ▸ different), if_pos one, if_pos state, ends]
  case armed =>
    rcases armed with ⟨zero, set⟩ | ⟨one, set⟩
    · rw [State.injectFault, if_pos zero, if_neg (not_not.mpr running), if_pos set, ends]
    · rw [State.injectFault, if_neg (one ▸ different), if_pos one, if_neg (not_not.mpr running), if_pos set, ends]
  case corrupt =>
    rw [State.injectFault, if_pos zero, if_neg (not_not.mpr running), if_neg (Bool.eq_false_iff.mp clear)]
    exact congrArg (fun t : State => Host.Outcome.next t.looked) (endPlain_of_idle _ _ .ok (afterTaking_proc_state s))
  case drop =>
    rw [State.injectFault, if_neg (one ▸ different), if_pos one, if_neg (not_not.mpr running), if_neg (Bool.eq_false_iff.mp clear)]
    exact congrArg (fun t : State => Host.Outcome.next t.looked) (endPlain_of_idle _ _ .ok (afterTaking_proc_state s))

end

end Sys2Proof.Machine

/-!
LINK START (R25 to R28): the judgement of the trigger, the refusals, and the two ways that an accepted START goes.
-/
namespace Sys2Proof.Machine

section
variable {s : State} {r : CommandRecord}

/-- The row takes its record, acts, and the processor looks for the next one (R153 to R155). -/
theorem exec_linkStart_of_taking (taking : s.Taking) :
    exec (.linkStart r) s = .next (s.afterTaking.linkStart r (s.taken 0x02 r)).looked := by
  rw [← lookForCommand_eq_looked]
  exact takeCommand_of_taking taking 0x02 r (State.linkStart r)

/-! ## The trigger (R25) -/

/-- A trigger with a line above 7 or another edge is not read. -/
theorem triggerFields_of_bad (bad : 7 < field r.w1 8 8 ∨ 1 < field r.w1 16 8) : triggerFields r = none := by
  unfold triggerFields
  split
  · next line =>
    have edge : 1 < field r.w1 16 8 := by omega
    rw [if_neg (by omega), if_neg (by omega)]
  · rfl

/-- A trigger whose line and edge are in range is read as they stand. -/
theorem triggerFields_of_good {line : LineId} {edge : Edge} (hline : field r.w1 8 8 = line.val)
    (hedge : field r.w1 16 8 = edgeCode edge) : triggerFields r = some { line := line, edge := edge } := by
  have same : (⟨field r.w1 8 8, hline ▸ line.isLt⟩ : LineId) = line := Fin.ext hline
  unfold triggerFields
  rw [dif_pos (hline ▸ line.isLt), same, hedge]
  cases edge <;> rfl

/-- A trigger that is not bad is read. -/
theorem triggerFields_isSome (good : ¬ (7 < field r.w1 8 8 ∨ 1 < field r.w1 16 8)) : ∃ w, triggerFields r = some w := by
  have line : field r.w1 8 8 < 8 := by omega
  unfold triggerFields
  rw [dif_pos line]
  by_cases rising : field r.w1 16 8 = 0
  · exact ⟨_, if_pos rising⟩
  · have falling : field r.w1 16 8 = 1 := by omega
    exact ⟨_, (if_neg rising).trans (if_pos falling)⟩

/-! ## Refusals (R25) -/

/-- Where the link is not STOPPED, a START without a bad field is refused by the link's state. -/
theorem linkStart_of_not_stopped (good : ¬ (triggerPresent r = true ∧ (7 < field r.w1 8 8 ∨ 1 < field r.w1 16 8)))
    (state : s.link.state ≠ .stopped) (c : Command) : s.linkStart r c = s.refuseStart c := by
  by_cases present : triggerPresent r = true
  · obtain ⟨w, read⟩ := triggerFields_isSome fun bad => good ⟨present, bad⟩
    simp only [State.linkStart, present, read, state, if_true, if_false]
  · simp only [State.linkStart, present, state, Bool.false_eq_true, if_false]

theorem linkStartRefused : Claims.LinkStartRefused := by
  intro s r badTrigger taking meaning
  have ends := fun c status => endPlain_of_idle s.afterTaking c status (afterTaking_proc_state s)
  rw [exec_linkStart_of_taking taking]
  refine ⟨fun bad => ?bad, fun good state outstanding => ?busy, fun good state free => ?state⟩
  case bad =>
    obtain ⟨present, fields⟩ := meaning.1 bad
    have trigger : triggerPresent r = true := present
    simp only [State.linkStart, trigger, triggerFields_of_bad fields, if_true, ends]
  case busy =>
    rw [linkStart_of_not_stopped (s := s.afterTaking) (fun bad => good (meaning.2 bad)) state, State.refuseStart, if_pos (by exact outstanding), ends]
  case state =>
    have quiet : ¬ s.afterTaking.link.start.isSome = true := by rw [afterTaking_link, free]; decide
    rw [linkStart_of_not_stopped (s := s.afterTaking) (fun bad => good (meaning.2 bad)) state, State.refuseStart, if_neg quiet, ends]

/-! ## A START that waits (R27) -/

theorem timeoutField_eq (r : CommandRecord) :
    timeoutField r = if r.w2.toNat % 65536 = 0 then none else some (r.w2.toNat % 65536) := by
  have low : field r.w2 0 16 = r.w2.toNat % 65536 := rfl
  rw [timeoutField, low]

theorem linkStartWaits : Claims.LinkStartWaits := by
  intro s r line edge taking stopped present hline hedge
  have trigger : triggerPresent r = true := present
  have stopped' : s.afterTaking.link.state = .stopped := stopped
  rw [exec_linkStart_of_taking taking]
  simp only [State.linkStart, trigger, triggerFields_of_good hline hedge, if_true, stopped', timeoutField_eq]
  rfl

/-- Settles O19. -/
theorem linkStartJudged : Obligations.LinkStartJudged := ⟨linkStartRefused, linkStartWaits⟩

end

end Sys2Proof.Machine

/-!
The stream commands as taken (R44, R45, R50 to R52): the fields of OPEN STREAM, its judgement, and the entry to QUIESCING.
-/
namespace Sys2Proof.Machine

section
variable {s : State} {r : CommandRecord} {i : StreamId} {sh : Shape}

/-! ## Held commands -/

/-- A processor that is not IDLE does not look for a record (R153). -/
theorem looked_of_not_idle (busy : s.proc.state ≠ .idle) : s.looked = s := by
  unfold State.looked
  split
  · rfl
  · exact if_neg fun h => busy h.2.1

/-- A command that holds the processor keeps it from the next record (R156). -/
theorem looked_hold (s : State) (c : Command) : (s.hold c).looked = s.hold c :=
  looked_of_not_idle fun h => nomatch h

/-! ## The fields of OPEN STREAM (R44) -/

/-- A number is the stream's that it names. -/
theorem streamOf_eq_some {n : Nat} : streamOf n = some i ↔ n = i.val := by
  unfold streamOf
  constructor
  · intro h
    split at h
    · cases h; rfl
    · cases h
  · rintro rfl
    exact dif_pos i.isLt

/-- A number above 31 is no stream's. -/
theorem streamOf_eq_none {n : Nat} : streamOf n = none ↔ 31 < n := by
  unfold streamOf
  split
  · simp; omega
  · simp; omega

/-- Direction and mode are read as the kind whose codes they are. -/
theorem kindFields_eq_some {kind : StreamKind} : kindFields r = some kind ↔ (field r.w1 8 8, field r.w2 8 8) = kind.codes := by
  unfold kindFields
  generalize field r.w1 8 8 = direction
  generalize field r.w2 8 8 = mode
  constructor
  · intro h
    dsimp only at h
    split at h
    · next out =>
      split at h
      · next first => cases h; rw [out, first]; rfl
      · split at h
        · next second => cases h; rw [out, second]; rfl
        · cases h
    · split at h
      · next into =>
        split at h
        · next first => cases h; rw [into, first]; rfl
        · split at h
          · next second => cases h; rw [into, second]; rfl
          · cases h
      · cases h
  · intro h
    obtain ⟨rfl, rfl⟩ := Prod.mk.inj h
    cases kind with
    | outStream policy => cases policy <;> rfl
    | inStream mode => cases mode <;> rfl

/-- The shape of a record is read when it is legal and its fields are those of the record. -/
theorem shapeFields_eq_some :
    shapeFields r = some sh ↔
      sh.legal ∧ (field r.w1 8 8, field r.w2 8 8) = sh.kind.codes ∧ field r.w1 16 8 = sh.channels ∧ field r.w1 24 8 = sh.period
      ∧ field r.w2 0 8 = sh.phase ∧ field r.w2 16 8 = sh.depth ∧ r.w4 = sh.fillWord ∧ address r.w5 r.w6 = sh.ringBase
      ∧ r.w7.toNat = sh.ringSize := by
  constructor
  · intro h
    refine ⟨legal_of_shapeFields h, ?_⟩
    unfold shapeFields at h
    dsimp only at h
    split at h
    · cases h
    · next kind read =>
      split at h
      · cases h; exact ⟨kindFields_eq_some.1 read, rfl, rfl, rfl, rfl, rfl, rfl, rfl⟩
      · cases h
  · rintro ⟨legal, codes, channels, period, phase, depth, fill, base, size⟩
    have kind := kindFields_eq_some.2 codes
    simp only [shapeFields, kind, channels, period, phase, depth, fill, base, size]
    exact if_pos legal

/-- The marker of a record is read when its line and advance are in range (R44). -/
theorem markerFields_eq_some {marker : Option (MarkerId × Nat)} :
    markerFields r = some marker ↔
      match marker with
      | none => r.w3.getLsbD 0 = false
      | some (m, a) => r.w3.getLsbD 0 = true ∧ field r.w3 8 8 = m.val ∧ field r.w3 16 8 = a ∧ a ≤ 3 := by
  unfold markerFields
  cases marker with
  | none =>
    constructor
    · intro h
      split at h
      · split at h
        · split at h <;> simp at h
        · cases h
      · next absent => exact Bool.eq_false_iff.mpr absent
    · intro absent
      rw [absent]
      rfl
  | some pair =>
    obtain ⟨m, a⟩ := pair
    constructor
    · intro h
      split at h
      · next present =>
        split at h
        · split at h
          · next advance => cases h; exact ⟨present, rfl, rfl, advance⟩
          · cases h
        · cases h
      · simp at h
    · rintro ⟨present, line, rfl, advance⟩
      have same : (⟨field r.w3 8 8, line ▸ m.isLt⟩ : MarkerId) = m := Fin.ext line
      rw [if_pos present, dif_pos (line ▸ m.isLt), if_pos advance, same]

theorem openFields_iff {marker : Option (MarkerId × Nat)} :
    OpenFields r i sh marker ↔ streamField r = some i ∧ shapeFields r = some sh ∧ markerFields r = some marker := by
  rw [streamField, streamOf_eq_some, shapeFields_eq_some, markerFields_eq_some]
  constructor
  · rintro ⟨stream, legal, codes, channels, period, phase, depth, fill, base, size, line⟩
    exact ⟨stream, ⟨legal, codes, channels, period, phase, depth, fill, base, size⟩, line⟩
  · rintro ⟨stream, ⟨legal, codes, channels, period, phase, depth, fill, base, size⟩, line⟩
    exact ⟨stream, legal, codes, channels, period, phase, depth, fill, base, size, line⟩

/-! ## OPEN STREAM (R45) -/

/-- The row takes its record, acts, and the processor looks for the next one (R153 to R155). -/
theorem exec_openStream_of_taking (taking : s.Taking) :
    exec (.openStream r) s = .next (s.afterTaking.openStream r (s.taken 0x10 r)).looked := by
  rw [← lookForCommand_eq_looked]
  exact takeCommand_of_taking taking 0x10 r (State.openStream r)

/-- A record with a field at fault is BAD_PARAMETER. -/
theorem openStream_of_bad (bad : ∀ i sh marker, ¬ OpenFields r i sh marker) (c : Command) :
    s.openStream r c = s.endPlain c .badParameter := by
  unfold State.openStream
  split
  · next i sh marker stream shape line => exact absurd (openFields_iff.2 ⟨stream, shape, line⟩) (bad i sh marker)
  · rfl

/-- A record without one is judged by the tables (R45). -/
theorem openStream_of_good {marker : Option (MarkerId × Nat)} (good : OpenFields r i sh marker) (c : Command) :
    s.openStream r c = s.judgeOpen c i sh marker := by
  obtain ⟨stream, shape, line⟩ := openFields_iff.1 good
  rw [State.openStream, stream, shape, line]

theorem markerTaken_iff {marker : Option (MarkerId × Nat)} :
    s.markerTaken marker = true ↔ ∃ m a, marker = some (m, a) ∧ s.lines.markers[m].binding.isSome = true := by
  cases marker with
  | none => simp [State.markerTaken]
  | some pair => obtain ⟨m, a⟩ := pair; simp [State.markerTaken]

end

/-- Settles O33: the fields decide whether the record is judged, and each clause takes one branch of the judgement. -/
theorem openStreamJudged : Obligations.OpenStreamJudged := by
  intro s r taking
  have idle := afterTaking_proc_state s
  rw [exec_openStream_of_taking taking]
  refine ⟨fun bad => ?bad, fun i sh marker bound good meaning => ?good⟩
  case bad => rw [openStream_of_bad bad, endPlain_of_idle _ _ _ idle]
  have taken : s.afterTaking.markerTaken marker = true ↔ bound := markerTaken_iff.trans meaning.symm
  rw [openStream_of_good good, State.judgeOpen]
  refine ⟨fun refused => ?state, fun closed free short => ?short, fun closed free fits => ?accepted⟩
  case state =>
    by_cases closed : (s.afterTaking.stream i).state ≠ .closed
    · rw [if_pos closed, endPlain_of_idle _ _ _ idle]
    · have bound : bound := refused.resolve_left closed
      rw [if_neg closed, if_pos (taken.2 bound), endPlain_of_idle _ _ _ idle]
  case short =>
    have closed' : ¬ (s.afterTaking.stream i).state ≠ .closed := not_not.mpr closed
    rw [if_neg closed', if_neg (mt taken.1 free), if_pos (by exact short), endCommand_of_idle _ _ _ _ idle]
    rfl
  case accepted =>
    have closed' : ¬ (s.afterTaking.stream i).state ≠ .closed := not_not.mpr closed
    have fits' : ¬ s.afterTaking.freePool < sh.depth := Nat.not_lt.mpr fits
    rw [if_neg closed', if_neg (mt taken.1 free), if_neg fits', State.acceptOpen]
    have context : Stream.openAs sh =
        { state := .opened, shape := some sh, samples := [], elements := [], producer := 0, fetch := 0, retire := 0,
          list := [], descriptorInFlight := false, cursor := none, dataInFlight := none,
          lastSamples := if sh.kind.lane = .outLane then List.replicate sh.channels none else [],
          runFlag := false, runCount := 0, faultCause := none, pendingOperation := none, drained := false } := by
      cases kind : sh.kind <;> simp [Stream.openAs, Stream.reset, StreamKind.lane, kind]
    rw [context]
    cases marker with
    | none => exact congrArg (fun t : State => Host.Outcome.next t.looked) (endCommand_of_idle _ _ .ok _ idle)
    | some pair => exact congrArg (fun t : State => Host.Outcome.next t.looked) (endCommand_of_idle _ _ .ok _ idle)

section
variable {s : State} {r : CommandRecord} {i : StreamId}

/-! ## CLOSE STREAM and RESTART STREAM (R50 to R52) -/

theorem exec_closeStream_of_taking (taking : s.Taking) :
    exec (.closeStream r) s = .next (s.afterTaking.closeStream r (s.taken 0x11 r)).looked := by
  rw [← lookForCommand_eq_looked]
  exact takeCommand_of_taking taking 0x11 r (State.closeStream r)

theorem exec_restartStream_of_taking (taking : s.Taking) :
    exec (.restartStream r) s = .next (s.afterTaking.restartStream r (s.taken 0x12 r)).looked := by
  rw [← lookForCommand_eq_looked]
  exact takeCommand_of_taking taking 0x12 r (State.restartStream r)

theorem streamField_of_eq (stream : field r.w1 0 8 = i.val) : streamField r = some i := streamOf_eq_some.2 stream

theorem streamField_of_gt (above : 31 < field r.w1 0 8) : streamField r = none := streamOf_eq_none.2 above

theorem restartFields_of_eq (stream : field r.w1 0 8 = i.val) (index : r.w2.toNat ≤ 1023) : restartFields r = some (i, r.w2.toNat) := by
  simp only [restartFields, streamField_of_eq stream, index, if_true]

theorem restartFields_of_bad (bad : 31 < field r.w1 0 8 ∨ 1023 < r.w2.toNat) : restartFields r = none := by
  unfold restartFields
  split
  · rfl
  · next i stream =>
    have inside := streamOf_eq_some.1 stream
    exact if_neg (by omega)

end

/-- Settles O34: each clause takes one branch; a command that quiesces its stream holds the processor, which looks no further. -/
theorem closeAndRestartTaken : Obligations.CloseAndRestartTaken := by
  intro s r taking
  have ends := fun c status => endPlain_of_idle s.afterTaking c status (afterTaking_proc_state s)
  rw [exec_closeStream_of_taking taking, exec_restartStream_of_taking taking]
  refine ⟨fun above => ⟨?_, ?_⟩, fun above => ?_, fun i stream => ⟨fun closed => ⟨?_, fun index => ?_⟩, fun opened named => ?_,
    fun opened active pending => ?_, fun sh opened shape index => ⟨fun outside => ?_, fun inside => ?_⟩⟩⟩
  · simp only [State.closeStream, streamField_of_gt above, ends]
  · simp only [State.restartStream, restartFields_of_bad (.inl above), ends]
  · simp only [State.restartStream, restartFields_of_bad (.inr above), ends]
  · have closed' : (s.afterTaking.stream i).state = .closed := closed
    simp only [State.closeStream, streamField_of_eq stream, closed', if_true, ends]
  · have closed' : (s.afterTaking.stream i).state = .closed := closed
    simp only [State.restartStream, restartFields_of_eq stream index, closed', if_true, ends]
  · have opened' : ¬ (s.afterTaking.stream i).state = .closed := opened
    have scheduled : s.afterTaking.inSchedule i = true := Bool.or_eq_true_iff.2 named
    simp only [State.closeStream, streamField_of_eq stream, opened', scheduled, if_true, if_false, ends]
  · have opened' : ¬ (s.afterTaking.stream i).state = .closed := opened
    have unscheduled : s.afterTaking.inSchedule i = false := Bool.or_eq_false_iff.2 ⟨active, pending⟩
    simp only [State.closeStream, streamField_of_eq stream, opened', unscheduled, if_false, Bool.false_eq_true, State.beginQuiesce,
      looked_hold]
    rfl
  · have opened' : ¬ (s.afterTaking.stream i).state = .closed := opened
    have size : (s.afterTaking.stream i).ringSize = sh.ringSize := ringSize_of_shape shape
    simp only [State.restartStream, restartFields_of_eq stream index, opened', size, outside, if_true, if_false, ends]
  · have opened' : ¬ (s.afterTaking.stream i).state = .closed := opened
    have size : (s.afterTaking.stream i).ringSize = sh.ringSize := ringSize_of_shape shape
    have inside' : ¬ sh.ringSize ≤ r.w2.toNat := Nat.not_le.mpr inside
    simp only [State.restartStream, restartFields_of_eq stream index, opened', size, inside', if_false, State.beginQuiesce, looked_hold]
    rfl

end Sys2Proof.Machine

/-!
The end of a quiesce (R55, R56), and the errors that fault a stream or find it faulted (R46 to R49, R53).
-/
namespace Sys2Proof.Machine

/-! ## The end of a CLOSE and of a RESTART -/

section
variable {s : State} {i : StreamId}

/-- A marker bound to the stream is bound no longer, and every other stands (R55). -/
theorem unbindMarkers_marker (s : State) (i : StreamId) (m : MarkerId) :
    (s.unbindMarkers i).lines.markers[m].active = s.lines.markers[m].active
    ∧ ∀ b, (s.unbindMarkers i).lines.markers[m].binding = some b ↔ s.lines.markers[m].binding = some b ∧ b.stream ≠ i := by
  have read : (s.unbindMarkers i).lines.markers[m] =
      (match s.lines.markers[m].binding with
      | none => s.lines.markers[m]
      | some b => if b.stream = i then { s.lines.markers[m] with binding := none } else s.lines.markers[m]) :=
    Vector.getElem_map _ m.isLt
  rw [read]
  generalize s.lines.markers[m] = x
  obtain ⟨binding, active⟩ := x
  cases binding with
  | none => exact ⟨rfl, fun b => by simp⟩
  | some b =>
    by_cases own : b.stream = i
    · simp only [own, if_true, true_and]
      rintro b'
      simp only [reduceCtorEq, Option.some.injEq, false_iff, not_and, not_not]
      rintro rfl
      exact own
    · simp only [own, if_false, true_and, Option.some.injEq]
      rintro b'
      constructor
      · rintro rfl; exact ⟨rfl, own⟩
      · exact fun h => h.1

end

/-- Settles O37: the drain is finished and the list empty, so each row does what its operation asks, and the processor looks on. -/
theorem quiesceEnds : Obligations.QuiesceEnds := by
  intro s i sh c ready quiescing drained empty shape held
  have ended : (s.stream i).quiesceOver = true := by simp [Stream.quiesceOver, quiescing, drained, empty]
  have depth : (s.stream i).depth = sh.depth := by simp [Stream.depth, shape]
  refine ⟨fun close => ?close, fun n restart => ?restart⟩
  case close =>
    let closed : State := ({ s with freePool := s.freePool + sh.depth } : State).setStream i Stream.reset
    refine ⟨(closed.unbindMarkers i).endCommand c .ok (.closed (s.stream i).retire (s.freePool + sh.depth)), ?row, rfl, rfl, rfl,
      rfl, unbindMarkers_marker closed i, rfl, rfl, rfl, rfl, rfl⟩
    simp only [exec, execEndOfClose, ready, ended, close, held, State.endClose, State.endHeld, lookForCommand_eq_looked, depth,
      and_self, if_true]
    rfl
  case restart =>
    have emptied : (s.stream i).restartAt (s.sched.active.names i) n =
        { s.stream i with
          state := if s.sched.active.names i then .live else .opened
          samples := [], elements := [], producer := n, fetch := n, retire := n, cursor := none
          lastSamples := List.replicate (s.stream i).lastSamples.length none
          runFlag := false, runCount := 0, faultCause := none, pendingOperation := none, drained := false } := by
      simp [Stream.restartAt, empty]
    simp only [exec, execEndOfRestart, ready, ended, restart, held, State.endRestart, State.endHeld, lookForCommand_eq_looked,
      emptied, and_self, if_true]
    rfl

/-! ## Stream faults (R46 to R49) -/

section
variable {s : State} {i : StreamId}

/-- An OPEN or LIVE stream becomes FAULTED with the cause (R47). -/
theorem faultStream_of_issuing (ready : s.host.engine = .ready) (state : (s.stream i).state = .opened ∨ (s.stream i).state = .live)
    (cause : StreamFault) (n : Nat) :
    s.faultStream i cause n =
      (s.setStream i { s.stream i with state := .faulted, faultCause := some cause }).afterEvent (.streamFault i cause n) := by
  rcases state with opened | live
  · simp only [State.faultStream, opened]
    exact present_of_ready (s := s.setStream i _) ready _
  · simp only [State.faultStream, live]
    exact present_of_ready (s := s.setStream i _) ready _

/-- A FAULTED stream, and a QUIESCING one with a cause, keep the cause that they have (R48, R49). -/
theorem faultStream_of_kept (state : (s.stream i).state = .faulted ∨ (s.stream i).state = .quiescing)
    (kept : (s.stream i).state = .faulted ∨ (s.stream i).faultCause ≠ none) (cause : StreamFault) (n : Nat) :
    s.faultStream i cause n = s := by
  rcases state with faulted | quiescing
  · simp only [State.faultStream, faulted]
  · have present : (s.stream i).faultCause ≠ none := kept.resolve_left (by simp [quiescing])
    simp only [State.faultStream, quiescing, present, if_false]

/-- A QUIESCING stream without a cause records it and stays QUIESCING (R49). -/
theorem faultStream_of_quiescing (ready : s.host.engine = .ready) (quiescing : (s.stream i).state = .quiescing)
    (absent : (s.stream i).faultCause = none) (cause : StreamFault) (n : Nat) :
    s.faultStream i cause n =
      (s.setStream i { s.stream i with faultCause := some cause }).afterEvent (.streamFault i cause n) := by
  simp only [State.faultStream, quiescing, absent, if_true]
  exact present_of_ready (s := s.setStream i _) ready _

/-- Two writes of one stream are the second. -/
theorem setStream_twice (s : State) (i : StreamId) (a b : Stream) : (s.setStream i a).setStream i b = s.setStream i b := by
  simp [State.setStream]

/-! ### The answers to a stream's requests, in READY -/

/-- The state in which a descriptor read has its answer. -/
def State.descriptorDone (s : State) (i : StreamId) : State := (s.answered (.descriptor i)).descriptorAnswered i

/-- The state in which a data request has its answer. -/
def State.dataDone (s : State) (i : StreamId) : State := (s.answered (.data i)).dataAnswered i

theorem dataDone_eq (s : State) (i : StreamId) :
    s.dataDone i =
      { s with port := s.portWithout (.data i), streams := s.streams.set i { s.stream i with dataInFlight := none } } := rfl

@[simp] theorem descriptorDone_stream (s : State) (i : StreamId) :
    (s.descriptorDone i).stream i = { s.stream i with descriptorInFlight := false } := stream_setStream_self _ i _

@[simp] theorem dataDone_stream (s : State) (i : StreamId) :
    (s.dataDone i).stream i = { s.stream i with dataInFlight := none } := stream_setStream_self _ i _

@[simp] theorem descriptorDone_host (s : State) (i : StreamId) : (s.descriptorDone i).host = s.host := rfl
@[simp] theorem dataDone_host (s : State) (i : StreamId) : (s.dataDone i).host = s.host := rfl

theorem setStream_descriptorDone (s : State) (i : StreamId) (c : Stream) :
    (s.descriptorDone i).setStream i c = { s with port := s.portWithout (.descriptor i), streams := s.streams.set i c } := by
  rw [State.descriptorDone, State.descriptorAnswered, setStream_twice]; rfl

theorem setStream_dataDone (s : State) (i : StreamId) (c : Stream) :
    (s.dataDone i).setStream i c = { s with port := s.portWithout (.data i), streams := s.streams.set i c } := by
  rw [State.dataDone, State.dataAnswered, setStream_twice]; rfl

/-- An error answer to a descriptor read is reported with the fetch index (R91). -/
theorem exec_descriptorReadError (ready : s.host.engine = .ready) (flying : s.inFlight (.descriptor i) = true) :
    exec (.descriptorReadError i) s = .next ((s.descriptorDone i).faultStream i .readError (s.stream i).fetch) := by
  simp only [exec, execDescriptorReadError, onAnswer_const flying (by simp [ready] : s.host.engine ≠ .resetting)]
  change Host.Outcome.next (if (s.descriptorDone i).host.engine = .ready then
    (s.descriptorDone i).faultStream i .readError ((s.descriptorDone i).stream i).fetch else s.descriptorDone i) = _
  rw [descriptorDone_host, if_pos ready, descriptorDone_stream]

/-- A descriptor that has been read is judged in OPEN and LIVE alone (R91). -/
theorem exec_descriptorReadDone (ready : s.host.engine = .ready) (flying : s.inFlight (.descriptor i) = true) (ws : Vector Word 4) :
    exec (.descriptorReadDone i ws) s =
      .next (if (s.stream i).mayIssue then (s.descriptorDone i).judgeDescriptor i ws else s.descriptorDone i) := by
  simp only [exec, execDescriptorReadDone, onAnswer_const flying (by simp [ready] : s.host.engine ≠ .resetting)]
  change Host.Outcome.next (if (s.descriptorDone i).host.engine = .ready ∧ ((s.descriptorDone i).stream i).mayIssue = true then
    (s.descriptorDone i).judgeDescriptor i ws else s.descriptorDone i) = _
  have issues : ((s.descriptorDone i).stream i).mayIssue = (s.stream i).mayIssue := by rw [descriptorDone_stream]; rfl
  rw [descriptorDone_host, issues]
  simp only [ready, true_and]

/-- A data request's error is reported with the ring index of the cursor's entry (R105, R130). -/
theorem dataFailed_dataDone {k : Cursor} (cursor : (s.stream i).cursor = some k) (cause : StreamFault) :
    (s.dataDone i).dataFailed i cause = (s.dataDone i).faultStream i cause k.ringIndex := by
  simp [State.dataFailed, cursor]

theorem exec_dataReadError {q : Request} {k : Cursor} {n : Nat} (ready : s.host.engine = .ready)
    (request : s.request (.data i) = some q) (read : q.transfer = .read n) (cursor : (s.stream i).cursor = some k) :
    exec (.dataReadError i) s = .next ((s.dataDone i).faultStream i .readError k.ringIndex) := by
  simp only [exec, execDataReadError, onReadAnswer_of_read request read (by simp [ready] : s.host.engine ≠ .resetting)]
  change Host.Outcome.next (if (s.dataDone i).host.engine = .ready then (s.dataDone i).dataFailed i .readError else s.dataDone i) = _
  rw [dataDone_host, if_pos ready, dataFailed_dataDone cursor]

theorem exec_dataWriteError {q : Request} {k : Cursor} {ws : List Word} (ready : s.host.engine = .ready)
    (request : s.request (.data i) = some q) (write : q.transfer = .write ws) (cursor : (s.stream i).cursor = some k) :
    exec (.dataWriteError i) s = .next ((s.dataDone i).faultStream i .writeError k.ringIndex) := by
  simp only [exec, execDataWriteError, onWriteAnswer_of_write request write (by simp [ready] : s.host.engine ≠ .resetting)]
  change Host.Outcome.next (if (s.dataDone i).host.engine = .ready then (s.dataDone i).dataFailed i .writeError else s.dataDone i) = _
  rw [dataDone_host, if_pos ready, dataFailed_dataDone cursor]

/-- Samples that have been read join staging in OPEN and LIVE alone (R104, R105). -/
theorem exec_dataReadDone {q : Request} {n : Nat} (ready : s.host.engine = .ready)
    (request : s.request (.data i) = some q) (read : q.transfer = .read n) (ws : List Word) :
    exec (.dataReadDone i ws) s =
      .next (if (s.stream i).mayIssue then
        if ws.length = n then (s.dataDone i).setStream i (((s.dataDone i).stream i).takeSamples ws) else s
      else s.dataDone i) := by
  simp only [exec, execDataReadDone, onReadAnswer_of_read request read (by simp [ready] : s.host.engine ≠ .resetting)]
  change Host.Outcome.next (if (s.dataDone i).host.engine = .ready ∧ ((s.dataDone i).stream i).mayIssue = true then
    if ws.length = n then (s.dataDone i).setStream i (((s.dataDone i).stream i).takeSamples ws) else s else s.dataDone i) = _
  have issues : ((s.dataDone i).stream i).mayIssue = (s.stream i).mayIssue := by rw [dataDone_stream]; rfl
  rw [dataDone_host, issues]
  simp only [ready, true_and]

theorem mayIssue_iff {c : Stream} : c.mayIssue = true ↔ c.state = .opened ∨ c.state = .live := by simp [Stream.mayIssue]

theorem not_mayIssue {c : Stream} (state : c.state = .faulted ∨ c.state = .quiescing) : c.mayIssue = false := by
  rcases state with h | h <;> simp [Stream.mayIssue, h]

/-- The lowest two bits of an address are those of its low word. -/
theorem field_low_two (lo hi : Word) : field lo 0 2 = (address lo hi).toNat % 4 := by
  have := lo.isLt
  have := hi.isLt
  simp only [field, address, BitVec.toNat_ofNat, Nat.shiftRight_zero]
  omega

theorem descriptorValid_iff (ws : Vector Word 4) : descriptorValid ws = true ↔ field ws[2] 0 16 ≠ 0 ∧ field ws[0] 0 2 = 0 := by
  simp [descriptorValid]

end

theorem errorsFaultOpenStreams : Claims.ErrorsFaultOpenStreams := by
  intro s i ready state
  have descriptorState : ((s.descriptorDone i).stream i).state = .opened ∨ ((s.descriptorDone i).stream i).state = .live := by
    rwa [descriptorDone_stream]
  have dataState : ((s.dataDone i).stream i).state = .opened ∨ ((s.dataDone i).stream i).state = .live := by
    rwa [dataDone_stream]
  refine ⟨fun flying => ?error, fun ws flying bad => ?bad, fun q k request cursor => ⟨fun n read => ?read, fun ws write => ?write⟩⟩
  case error =>
    rw [exec_descriptorReadError ready flying, faultStream_of_issuing (s := s.descriptorDone i) ready descriptorState, descriptorDone_stream,
      setStream_descriptorDone]
  case bad =>
    have invalid : ¬ descriptorValid ws = true := by
      rw [descriptorValid_iff]
      rintro ⟨count, aligned⟩
      exact bad.elim count (fun h => h aligned)
    rw [exec_descriptorReadDone ready flying, if_pos (mayIssue_iff.2 state), State.judgeDescriptor, if_neg invalid,
      faultStream_of_issuing (s := s.descriptorDone i) ready descriptorState, descriptorDone_stream, setStream_descriptorDone]
  case read =>
    rw [exec_dataReadError ready request read cursor, faultStream_of_issuing (s := s.dataDone i) ready dataState, dataDone_stream,
      setStream_dataDone]
  case write =>
    rw [exec_dataWriteError ready request write cursor, faultStream_of_issuing (s := s.dataDone i) ready dataState, dataDone_stream,
      setStream_dataDone]

theorem laterErrorsKeepTheState : Claims.LaterErrorsKeepTheState := by
  intro s i ready state
  have silent := not_mayIssue state
  refine ⟨fun d hd flying => ?descriptor, fun d q k hd request cursor => ?data⟩
  case descriptor =>
    obtain rfl : d = s.descriptorDone i := hd
    have state' : ((s.descriptorDone i).stream i).state = .faulted ∨ ((s.descriptorDone i).stream i).state = .quiescing := by
      rwa [descriptorDone_stream]
    refine ⟨fun ws => ?_, fun kept => ?_, fun quiescing absent => ?_⟩
    · rw [exec_descriptorReadDone ready flying, if_neg (by simp [silent])]
    · rw [exec_descriptorReadError ready flying, faultStream_of_kept state' (by rwa [descriptorDone_stream])]
    · rw [exec_descriptorReadError ready flying, faultStream_of_quiescing (s := s.descriptorDone i) ready
        (by rwa [descriptorDone_stream]) (by rwa [descriptorDone_stream])]
      rfl
  case data =>
    obtain rfl : d = s.dataDone i := hd
    have state' : ((s.dataDone i).stream i).state = .faulted ∨ ((s.dataDone i).stream i).state = .quiescing := by
      rwa [dataDone_stream]
    have kept (h : (s.stream i).state = .faulted ∨ (s.stream i).faultCause ≠ none) (cause : StreamFault) :
        (s.dataDone i).faultStream i cause k.ringIndex = s.dataDone i :=
      faultStream_of_kept state' (by rwa [dataDone_stream]) cause _
    have recorded (quiescing : (s.stream i).state = .quiescing) (absent : (s.stream i).faultCause = none) (cause : StreamFault) :=
      faultStream_of_quiescing (s := s.dataDone i) (i := i) ready (by rwa [dataDone_stream]) (by rwa [dataDone_stream]) cause k.ringIndex
    refine ⟨fun n read => ⟨fun ws => ?_, fun h => ?_, fun quiescing absent => ?_⟩, fun ws write => ⟨fun h => ?_, fun quiescing absent => ?_⟩⟩
    · rw [exec_dataReadDone ready request read, if_neg (by simp [silent])]
    · rw [exec_dataReadError ready request read cursor, kept h]
    · rw [exec_dataReadError ready request read cursor, recorded quiescing absent]
      rfl
    · rw [exec_dataWriteError ready request write cursor, kept h]
    · rw [exec_dataWriteError ready request write cursor, recorded quiescing absent]
      rfl

/-- Settles O38. -/
theorem errorsFaultTheStream : Obligations.ErrorsFaultTheStream := ⟨errorsFaultOpenStreams, laterErrorsKeepTheState⟩

end Sys2Proof.Machine

/-!
Descriptor reads and data reads (Chapters 5 and 6): when they are issued and what they bring.
-/
namespace Sys2Proof.Machine

/-! ## Descriptor reads (R90, R91) -/

section
variable {s : State} {i : StreamId} {sh : Shape}

theorem wantsDescriptor_iff {c : Stream} :
    c.wantsDescriptor = true ↔
      (c.state = .opened ∨ c.state = .live) ∧ c.list.length < 2 ∧ c.fetch ≠ c.producer ∧ c.descriptorInFlight = false := by
  simp [Stream.wantsDescriptor, mayIssue_iff, and_assoc]

/-- A good descriptor joins the tail of the list, and an absent cursor takes the new entry (R91). -/
theorem takeDescriptor_eq {c : Stream} (shape : c.shape = some sh) (ws : Vector Word 4) :
    c.takeDescriptor ws =
      { c with
        list := c.list ++ [descriptorEntry ws c.fetch]
        fetch := (c.fetch + 1) % sh.ringSize
        cursor := if c.cursor = none then some { ringIndex := c.fetch, moved := 0 } else c.cursor } := by
  rw [Stream.takeDescriptor, ringSize_of_shape shape]
  cases c.cursor <;> rfl

end

/-- Settles O48: R90 is one test, and a descriptor that passes R91 joins the list. -/
theorem descriptorsAreFetched : Obligations.DescriptorsAreFetched := by
  intro s i sh shape ready
  refine ⟨fun state room posted quiet => ?issues, fun other => ?none, fun ws flying state count aligned => ?done⟩
  case issues =>
    have wants := wantsDescriptor_iff.2 ⟨state, room, posted, quiet⟩
    have row : exec (.descriptorReadIssue i) s = .next (s.readDescriptor i sh) := by
      simp only [exec, execDescriptorReadIssue, ready, wants, shape, and_self, if_true]
    exact row
  case none =>
    refine congrArg Host.Outcome.next (if_neg fun h => other (wantsDescriptor_iff.1 h.2))
  case done =>
    have valid : descriptorValid ws = true := (descriptorValid_iff ws).2 ⟨count, (field_low_two ws[0] ws[1]).trans aligned⟩
    have shape' : ({ s.stream i with descriptorInFlight := false } : Stream).shape = some sh := shape
    rw [exec_descriptorReadDone ready flying, if_pos (mayIssue_iff.2 state), State.judgeDescriptor, if_pos valid,
      setStream_descriptorDone, descriptorDone_stream, takeDescriptor_eq shape']
    rfl

/-! ## The cursor (R101, R104, R127, R129) -/

section
variable {c : Stream} {e : Entry} {moved : Nat} {behind : List Entry}

/-- The cursor's entry is the one that it stands at. -/
theorem cursorEntry_of_cursorAt (h : CursorAt c e moved behind) : c.cursorEntry = some (e, moved) := by
  obtain ⟨cursor, before, list, others⟩ := h
  have found : c.list.find? (fun x => decide (x.ringIndex = e.ringIndex)) = some e := by
    rw [list, List.find?_append, List.find?_eq_none.2 (by simpa using others)]
    simp
  simp [Stream.cursorEntry, cursor, found]

/-- Behind the entry of the cursor comes the first of the entries behind it. -/
theorem cursorBehind_append {before : List Entry} (others : ∀ x ∈ before, x.ringIndex ≠ e.ringIndex) :
    cursorBehind e.ringIndex (before ++ e :: behind) = cursorAtFirst behind := by
  induction before with
  | nil =>
    rw [List.nil_append, cursorBehind, if_pos rfl]
    cases behind <;> rfl
  | cons x rest ih =>
    rw [List.cons_append, cursorBehind, if_neg (others x List.mem_cons_self)]
    exact ih fun y hy => others y (List.mem_cons_of_mem x hy)

/-- The cursor moved on by `n` within its block, and to the next entry at the block's end. -/
theorem cursorAfter_of_cursorAt (h : CursorAt c e moved behind) {n : Nat} (inside : moved + n ≤ e.count) :
    c.cursorAfter e moved n =
      if moved + n = e.count then cursorAtFirst behind else some { ringIndex := e.ringIndex, moved := moved + n } := by
  obtain ⟨-, before, list, others⟩ := h
  have full : e.count ≤ moved + n ↔ moved + n = e.count := by omega
  rw [Stream.cursorAfter, list, cursorBehind_append others]
  simp only [full]

end

/-! ## Data reads (R102 to R104) -/

/-- The samples that join staging are the words read. -/
theorem markSamples_values (ends : Bool) : ∀ ws : List Word, (markSamples ends ws).map (·.value) = ws
  | [] => rfl
  | [_] => rfl
  | _ :: x :: rest => congrArg _ (markSamples_values ends (x :: rest))

/-- The last sample of a read alone can carry the block-end mark. -/
theorem markSamples_blockEnd (ends : Bool) :
    ∀ (ws : List Word) (k : Nat) (x : Sample), (markSamples ends ws)[k]? = some x →
      (x.blockEnd = true ↔ k + 1 = ws.length ∧ ends = true)
  | [], k, x, h => by simp [markSamples] at h
  | [w], k, x, h => by
    cases k with
    | zero => cases h; simp
    | succ k => simp [markSamples] at h
  | w :: w' :: rest, k, x, h => by
    cases k with
    | zero => cases h; simp
    | succ k =>
      have ih := markSamples_blockEnd ends (w' :: rest) k x h
      simpa using ih

theorem dataReadsJoinStaging : Claims.DataReadsJoinStaging := by
  intro s i sh policy e fetched behind ready shape kind state cursor room
  refine ⟨fun quiet space => ?issues, fun q ws request read _ inside => ?done⟩
  case issues =>
    have entry := cursorEntry_of_cursorAt cursor
    have may : (s.stream i).mayIssue = true := mayIssue_iff.2 state
    have row : exec (.dataReadIssue i) s = .next (s.readData i sh e fetched) := by
      simp only [exec, execDataReadIssue, State.tryRead, shape, entry, kind, ready, may, quiet, space, and_self, if_true]
    exact row
  case done =>
    have entry : ({ s.stream i with dataInFlight := none } : Stream).cursorEntry = some (e, fetched) := cursorEntry_of_cursorAt cursor
    have after := cursorAfter_of_cursorAt cursor (n := ws.length) inside
    refine ⟨_, markSamples (decide (fetched + ws.length = e.count)) ws, ?_, rfl, markSamples_values _ ws, fun k x get => ?_⟩
    · rw [exec_dataReadDone ready request read, if_pos (mayIssue_iff.2 state), if_pos rfl, setStream_dataDone, dataDone_stream,
        Stream.takeSamples, entry]
      simp only [← after]
      rfl
    · rw [markSamples_blockEnd _ ws k x get, decide_eq_true_eq]

theorem noDataReadOtherwise : Claims.NoDataReadOtherwise := by
  intro s i other
  have issue : ∀ sh policy, (s.stream i).shape = some sh → sh.kind = .outStream policy → (s.stream i).cursorEntry ≠ none →
      ¬ (s.host.engine = .ready ∧ (s.stream i).mayIssue = true ∧ (s.stream i).dataInFlight = none
        ∧ (s.stream i).samples.length < sh.depth) := by
    rintro sh policy shape kind entry ⟨ready, may, quiet, space⟩
    rcases other with h | h | h | h | h | h | ⟨sh', shape', h⟩
    · exact h ready
    · simp [mayIssue_iff, h] at may
    · simp [mayIssue_iff, h] at may
    · simp [mayIssue_iff, h] at may
    · exact entry (by simp [Stream.cursorEntry, h])
    · simp [quiet] at h
    · cases shape.symm.trans shape'
      rcases h with lane | full
      · simp [kind, StreamKind.lane] at lane
      · omega
  refine congrArg Host.Outcome.next ?_
  unfold State.tryRead
  dsimp only
  split
  · next sh e fetched shape entry =>
    split
    · rfl
    · next policy kind => exact if_neg (issue sh policy shape kind (by simp [entry]))
  · rfl

/-- Settles O49. -/
theorem dataReadsFillStaging : Obligations.DataReadsFillStaging := ⟨dataReadsJoinStaging, noDataReadOtherwise⟩

end Sys2Proof.Machine

/-!
Retirements one head at a time (R93 to R96), and the Store Unit's data writes (R127 to R131, R199).
-/
namespace Sys2Proof.Machine

/-! ## Retirements, one head at a time -/

section
variable {s : State} {i : StreamId} {e : Entry} {rest : List Entry} {a : BlockStatus}

theorem retireHeads_of_nil (empty : (s.stream i).list = []) (n : Nat) : retireHeads n i s = s := by
  cases n with
  | zero => rfl
  | succ n => simp only [retireHeads, empty]

/-- A head that is not finished keeps those behind it in the list (R93). -/
theorem retireHeads_of_unfinished (list : (s.stream i).list = e :: rest) (unfinished : e.finished = none) (n : Nat) :
    retireHeads n i s = s := by
  cases n with
  | zero => rfl
  | succ n => simp only [retireHeads, list, unfinished]

/-- A head that must report waits where no place is free (R96). -/
theorem retireHeads_of_waiting (list : (s.stream i).list = e :: rest) (finished : e.finished = some a)
    (reports : producesRecord (s.stream i) e a = true) (full : ¬ s.placesInUse < 32) (n : Nat) : retireHeads n i s = s := by
  have none : s.freePlace = false := decide_eq_false full
  cases n with
  | zero => rfl
  | succ n => simp only [retireHeads, list, finished, reports, none, if_true, if_false, Bool.false_eq_true]

/-- A head that must report takes a free place with its record (R94). -/
theorem retireHeads_of_reporting (list : (s.stream i).list = e :: rest) (finished : e.finished = some a)
    (reports : producesRecord (s.stream i) e a = true) (free : s.placesInUse < 32) (n : Nat) :
    retireHeads (n + 1) i s = retireHeads n i (s.retireReporting i e a) := by
  have place : s.freePlace = true := decide_eq_true free
  simp only [retireHeads, list, finished, reports, place, if_true]

/-- A head that is silent needs no place (R94). -/
theorem retireHeads_of_silent (list : (s.stream i).list = e :: rest) (finished : e.finished = some a)
    (silent : producesRecord (s.stream i) e a = false) (n : Nat) :
    retireHeads (n + 1) i s = retireHeads n i (s.retireSilently i) := by
  simp only [retireHeads, list, finished, silent, if_false, Bool.false_eq_true]

theorem retireHeads_of_all_unfinished (unfinished : ∀ x ∈ (s.stream i).list, x.finished = none) (n : Nat) : retireHeads n i s = s := by
  cases list : (s.stream i).list with
  | nil => exact retireHeads_of_nil list n
  | cons x rest => exact retireHeads_of_unfinished list (unfinished x (by rw [list]; exact List.mem_cons_self)) n

theorem producesRecord_iff {c : Stream} : producesRecord c e a = true ↔ e.report = true ∨ a ≠ .complete ∨ c.drained = true := by
  simp [producesRecord, or_assoc]

end

/-! ## Data writes as issued (R127, R128) -/

/-- A write covers whole elements (R128). -/
theorem writeSize_eq {c : Stream} {e : Entry} {sh : Shape} {w : Nat} (width : sh.kind.wordsPerElement = w) (small : w = 1 ∨ w = 2)
    (stored : Nat) : c.writeSize sh e stored = min (16 / w) (min c.elements.length (e.count - stored)) := by
  rw [Stream.writeSize, width]
  rcases small with rfl | rfl
  · simp
  · omega

theorem dataWritesIssued : Claims.DataWritesIssued := by
  intro s i sh mode e stored w n behind ready shape kind width cursor room size
  have entry := cursorEntry_of_cursorAt cursor
  have width' : sh.kind.wordsPerElement = w := by rw [kind, width]; cases mode <;> rfl
  have small : w = 1 ∨ w = 2 := by rw [width]; cases mode <;> simp
  have size' : (s.stream i).writeSize sh e stored = n := by rw [writeSize_eq width' small, size]
  refine ⟨fun state quiet staged => ?issues, fun other => ?none⟩
  case issues =>
    have row : exec (.dataWriteIssue i) s = .next (s.writeData i sh mode e stored) := by
      simp only [exec, execDataWriteIssue, State.tryWrite, shape, entry, kind, ready, mayIssue_iff.2 state, quiet, staged, ne_eq,
        not_false_eq_true, and_self, if_true]
    rw [row, State.writeData, size', width']
    rfl
  case none =>
    have refused : ¬ (s.host.engine = .ready ∧ (s.stream i).mayIssue = true ∧ (s.stream i).dataInFlight = none
        ∧ (s.stream i).elements ≠ []) := by
      rintro ⟨-, may, quiet, staged⟩
      rcases other with h | h | h | h
      · simp [mayIssue_iff, h] at may
      · simp [mayIssue_iff, h] at may
      · simp [quiet] at h
      · exact staged h
    simp only [exec, execDataWriteIssue, State.tryWrite, shape, entry, kind]
    rw [if_neg refused]

/-! ## Data writes as stored (R129, R131) -/

section
variable {c : Stream} {e : Entry} {behind : List Entry}

theorem countCondition_eq (k : Condition) (elements : List Element) :
    countCondition k elements = elements.countP fun x => decide (x.condition = k) := List.countP_eq_length_filter.symm

/-- The progress record gains what the statements say (R129, R133). -/
theorem store_eq_storedIn (e : Entry) (elements : List Element) : e.store elements = storedIn e elements := by
  unfold Entry.store storedIn
  simp only [countCondition_eq]
  cases e.firstFrame with
  | some f => rfl
  | none => cases elements <;> rfl

/-- The write's effect on the stream, where one entry alone has the cursor's ring index. -/
theorem takeWrite_of_cursorAt {stored n : Nat} (cursor : CursorAt c e stored behind) (inside : stored + n ≤ e.count)
    (unique : ∀ x ∈ c.list, x.ringIndex = e.ringIndex → x = e) :
    c.takeWrite n =
      { c with
        elements := c.elements.drop n
        list := c.list.map fun x => if x = e then (storedIn e (c.elements.take n)).finishWhenFull c.mayIssue else x
        cursor :=
          if stored + n = e.count then cursorAtFirst behind
          else some { ringIndex := e.ringIndex, moved := stored + n } } := by
  have entries : (c.list.map fun x => if x.ringIndex = e.ringIndex then (x.store (c.elements.take n)).finishWhenFull c.mayIssue else x) =
      c.list.map fun x => if x = e then (storedIn e (c.elements.take n)).finishWhenFull c.mayIssue else x := by
    refine List.map_congr_left fun x mem => ?_
    by_cases same : x = e
    · rw [same, if_pos rfl, if_pos rfl, store_eq_storedIn]
    · rw [if_neg fun index => same (unique x mem index), if_neg same]
  rw [Stream.takeWrite, cursorEntry_of_cursorAt cursor]
  dsimp only
  rw [entries, cursorAfter_of_cursorAt cursor inside]

/-- A block that its last write does not fill, and any block in FAULTED or QUIESCING, keeps its mark clear (R131). -/
theorem finishWhenFull_of_not {may : Bool} (h : ¬ (may = true ∧ e.done = e.count)) : e.finishWhenFull may = e :=
  if_neg (by simpa using h)

theorem finishWhenFull_of_full (full : e.done = e.count) : e.finishWhenFull true = { e with finished := some .complete } :=
  if_pos (by simpa using full)

variable {s : State} {i : StreamId}

/-- A data write that is answered in READY is stored (R129). -/
theorem exec_dataWriteDone {q : Request} {ws : List Word} {n : Nat} (ready : s.host.engine = .ready)
    (request : s.request (.data i) = some q) (write : q.transfer = .write ws) (size : (s.stream i).dataInFlight = some n) :
    exec (.dataWriteDone i) s = .next ((s.dataDone i).storeElements i n) := by
  simp only [exec, execDataWriteDone, onWriteAnswer_of_write request write (by simp [ready] : s.host.engine ≠ .resetting),
    answered_stream, size, answered_host, ready, if_true]
  rfl

end

theorem dataWritesStored : Claims.DataWritesStored := by
  intro s i sh mode e stored n behind q ws ready shape kind cursor request write size some enough inside clear unique state
  have cursor' : CursorAt ({ s.stream i with dataInFlight := none } : Stream) e stored behind := cursor
  have may : ({ s.stream i with dataInFlight := none } : Stream).mayIssue = (s.stream i).mayIssue := rfl
  have taken := takeWrite_of_cursorAt cursor' (n := n) inside unique
  have unfilled : (storedIn e ((s.stream i).elements.take n)).finishWhenFull (s.stream i).mayIssue =
      storedIn e ((s.stream i).elements.take n) := by
    refine finishWhenFull_of_not ?_
    rintro ⟨issues, full⟩
    rcases state with h | h | ⟨-, room, done, -⟩
    · rw [not_mayIssue (.inl h)] at issues; cases issues
    · rw [not_mayIssue (.inr h)] at issues; cases issues
    · simp only [storedIn, List.length_take, Nat.min_eq_left enough] at full
      omega
  rw [may] at taken
  simp only [unfilled] at taken
  rw [exec_dataWriteDone ready request write size, State.storeElements, dataDone_stream, taken]
  refine congrArg Host.Outcome.next (Eq.trans ?_ (setStream_dataDone s i _))
  by_cases issues : ({ s.stream i with dataInFlight := none } : Stream).mayIssue = true
  · rw [if_pos issues]
    have progress := state.resolve_left fun h => by rw [may, not_mayIssue (.inl h)] at issues; cases issues
    obtain ⟨-, -, -, waits⟩ := progress.resolve_left fun h => by rw [may, not_mayIssue (.inr h)] at issues; cases issues
    rcases waits with unfinished | ⟨full, h, a, l, list, finished, reports⟩
    · refine retireHeads_of_all_unfinished (fun x mem => ?_) 2
      rw [stream_setStream_self] at mem
      obtain ⟨y, listed, rfl⟩ := List.mem_map.1 mem
      split
      · exact clear
      · exact unfinished y listed
    · have other : h ≠ e := by rintro rfl; rw [clear] at finished; cases finished
      refine retireHeads_of_waiting (s := (s.dataDone i).setStream i _) (e := h) (a := a)
        (rest := l.map fun x => if x = e then storedIn e ((s.stream i).elements.take n) else x) ?_ finished ?_ (Nat.not_lt.mpr full) 2
      · rw [stream_setStream_self]
        simp [list, other]
      · exact producesRecord_iff.2 (reports.imp_right .inl)
  · rw [if_neg issues]

/-! ## The words of an element (R122, R199) -/

theorem elementWordsOfBothModes : Claims.ElementWordsOfBothModes := by
  refine fun x => ⟨rfl, fun channel => ⟨elementTag x, rfl, ?_⟩⟩
  have code : x.condition.code < 4 := by cases x.condition <;> decide
  have frame : (place 0 (x.frame.toNat % 2 ^ 16)).toNat = x.frame.toNat % 2 ^ 16 := toNat_place_zero (by omega)
  have two := toNat_or_place (x := place 0 (x.frame.toNat % 2 ^ 16)) (lo := 16) (n := x.channel) (by omega) (by omega)
  have three := toNat_or_place (x := _ ||| place 16 x.channel) (lo := 24) (n := x.condition.code) (by rw [two]; omega) (by omega)
  rw [elementTag, three, two, frame]
  cases x.condition <;> rfl

/-- Settles O50. -/
theorem dataWritesStoreElements : Obligations.DataWritesStoreElements :=
  ⟨dataWritesIssued, dataWritesStored, elementWordsOfBothModes⟩

/-! ## The write that fills a block (R93 to R96, R129, R134) -/

section
variable {s : State} {i : StreamId} {sh : Shape} {before behind : List Entry} {e : Entry} {n : Nat}

/-- The context of the stream after the write that fills entry `e`, before any retirement. -/
def State.filled (s : State) (i : StreamId) (before : List Entry) (e : Entry) (behind : List Entry) (n : Nat) : Stream :=
  { s.stream i with
    dataInFlight := none
    elements := (s.stream i).elements.drop n
    list := before ++ { storedIn e ((s.stream i).elements.take n) with finished := some .complete } :: behind
    cursor := cursorAtFirst behind }

/-- Entries of other ring indices stand as they stood. -/
theorem map_others {l : List Entry} (f : Entry → Entry) (others : ∀ x ∈ l, x.ringIndex ≠ e.ringIndex) :
    (l.map fun x => if x = e then f x else x) = l := by
  have same : ∀ x ∈ l, (if x = e then f x else x) = x := fun x mem =>
    if_neg fun h => others x mem (congrArg Entry.ringIndex h)
  exact (List.map_congr_left same).trans (List.map_id' l)

/-- The write that fills a block leaves its stream so, and then the finished heads retire (R129). -/
theorem exec_dataWriteDone_of_fills (fills : FillsBlock s i sh before e behind n) :
    exec (.dataWriteDone i) s = .next (((s.dataDone i).setStream i (s.filled i before e behind n)).retireFinished i) := by
  obtain ⟨ready, -, -, state, -, list, others, cursor, -, ⟨q, ws, request, write⟩, size, -, enough, full⟩ := fills
  have otherBefore : ∀ x ∈ before, x.ringIndex ≠ e.ringIndex := fun x mem => others x (List.mem_append_left _ mem)
  have otherBehind : ∀ x ∈ behind, x.ringIndex ≠ e.ringIndex := fun x mem => others x (List.mem_append_right _ mem)
  have at_e : CursorAt ({ s.stream i with dataInFlight := none } : Stream) e e.done behind := ⟨cursor, before, list, otherBefore⟩
  have unique : ∀ x ∈ (s.stream i).list, x.ringIndex = e.ringIndex → x = e := by
    intro x mem index
    rw [list] at mem
    rcases List.mem_append.1 mem with h | h
    · exact absurd index (otherBefore x h)
    · exact (List.mem_cons.1 h).elim id fun h => absurd index (otherBehind x h)
  have may : ({ s.stream i with dataInFlight := none } : Stream).mayIssue = true := mayIssue_iff.2 state
  have length : ((s.stream i).elements.take n).length = n := by rw [List.length_take, Nat.min_eq_left enough]
  have finishes : (storedIn e ((s.stream i).elements.take n)).finishWhenFull true =
      { storedIn e ((s.stream i).elements.take n) with finished := some .complete } :=
    finishWhenFull_of_full (by rw [storedIn, length]; exact full)
  have context : ({ s.stream i with dataInFlight := none } : Stream).takeWrite n = s.filled i before e behind n := by
    rw [takeWrite_of_cursorAt at_e (Nat.le_of_eq full) unique, may, if_pos full]
    simp only [finishes, list, List.map_append, List.map_cons, if_true]
    rw [map_others _ otherBefore, map_others _ otherBehind]
    rfl
  rw [exec_dataWriteDone ready request write size, State.storeElements, dataDone_stream, context, if_pos may]

/-- The record of a filled block is the one that the statements give (R95). -/
theorem blockDoneOf_filled (size : Nat) {elements : List Element} (some : elements ≠ []) (count : e.count ≠ 0) :
    blockDoneOf i size { storedIn e elements with finished := Option.some .complete } .complete = inBlockDone i size e elements := by
  obtain ⟨first, rest, rfl⟩ := List.exists_cons_of_ne_nil some
  obtain ⟨last, hlast⟩ := Option.isSome_iff_exists.1 (List.getLast?_isSome.2 some)
  simp only [blockDoneOf, inBlockDone, Entry.doneAs, storedIn, Entry.frames, count, if_false, hlast, List.head?_cons, reduceCtorEq]
  cases e.firstFrame <;> rfl

end

theorem filledHeadRetires : Claims.FilledHeadRetires := by
  intro s i sh e behind n stored fills clear elements
  rw [exec_dataWriteDone_of_fills fills]
  obtain ⟨ready, shape, -, -, drained, -, -, -, -, -, -, positive, enough, full⟩ := fills
  generalize context : s.filled i [] e behind n = c
  have list : c.list = { storedIn e stored with finished := some .complete } :: behind := by rw [← context, elements]; rfl
  have drained' : c.drained = false := by rw [← context]; exact drained
  have size : c.ringSize = sh.ringSize := by rw [← context]; exact ringSize_of_shape shape
  have popped : c.popHead = { c with list := behind, retire := ((s.stream i).retire + 1) % sh.ringSize } := by
    rw [Stream.popHead, Stream.cursorOver, drained', size, list, ← context]
    rfl
  generalize hu : (s.dataDone i).setStream i c = u
  have own : u.stream i = c := by rw [← hu, stream_setStream_self]
  have list' : (u.stream i).list = { storedIn e stored with finished := some .complete } :: behind := own ▸ list
  have stops : ∀ t : State, (t.stream i).list = behind → retireHeads 1 i t = t := by
    refine fun t h => retireHeads_of_all_unfinished (fun x mem => clear x (h ▸ mem)) 1
  have produces : producesRecord (u.stream i) { storedIn e stored with finished := some .complete } .complete = e.report := by
    rw [own]
    simp [producesRecord, drained', storedIn]
  refine ⟨fun silent => ?silent, fun reports free => ?reports, fun reports occupied => ?waits⟩
  case silent =>
    rw [State.retireFinished, retireHeads_of_silent list' rfl (produces.trans silent), State.retireSilently, own, popped,
      stops _ (by rw [stream_setStream_self]), ← hu, setStream_twice, setStream_dataDone, ← context]
    rfl
  case reports =>
    have places : u.placesInUse < 32 := by rw [← hu]; exact free
    have nonempty : stored ≠ [] := by
      rw [elements, ← List.length_pos_iff, List.length_take]
      omega
    have record := blockDoneOf_filled (i := i) (e := e) sh.ringSize nonempty (by omega)
    rw [State.retireFinished, retireHeads_of_reporting list' rfl (produces.trans reports) places, State.retireReporting, own, popped, size,
      record, stops _ (by rw [stream_setStream_self]), ← hu, ← context]
    simp only [State.enter, afterWrite, dataDone_eq, State.setStream, State.filled, Vector.set_set]
  case waits =>
    have places : ¬ u.placesInUse < 32 := by rw [← hu]; exact Nat.not_lt.mpr occupied
    refine ⟨u, ?_, ?_, ?_⟩
    · rw [State.retireFinished, retireHeads_of_waiting list' rfl (produces.trans reports) places]
    · rw [← hu, setStream_dataDone, ← context, elements]
      rfl
    · rw [own, Stream.retirementWaiting, list]
      rfl

theorem filledBlockWaitsBehindHead : Claims.FilledBlockWaitsBehindHead := by
  intro s i sh head e a n fills finished reports occupied
  rw [exec_dataWriteDone_of_fills fills]
  refine congrArg Host.Outcome.next (Eq.trans ?_ (setStream_dataDone s i _))
  refine retireHeads_of_waiting (s := (s.dataDone i).setStream i _) (e := head) (a := a)
    (rest := [{ storedIn e ((s.stream i).elements.take n) with finished := some .complete }]) ?_ finished ?_ (Nat.not_lt.mpr occupied) 2
  · rw [stream_setStream_self]
    rfl
  · exact producesRecord_iff.2 (reports.imp_right .inl)

/-- Settles O51. -/
theorem filledBlockRetires : Obligations.FilledBlockRetires := ⟨filledHeadRetires, filledBlockWaitsBehindHead⟩

end Sys2Proof.Machine

/-!
The end of a drain (R54, R98) and the record of a retirement (R95).
-/
namespace Sys2Proof.Machine

/-! ## The record of a retirement -/

theorem blockDoneFields : Claims.BlockDoneFields := by
  rintro i size e status b rfl
  refine ⟨rfl, rfl, rfl, rfl, rfl, ?_, ?_, ?_, fun none => if_pos none, fun first last some h1 h2 => ?frames, fun done => ?counts,
    fun aborted => ?none⟩
  · rintro rfl; rfl
  · rintro rfl; rfl
  · rintro rfl; rfl
  case frames =>
    have frames : e.frames = Option.some (first, last) := by simp [Entry.frames, h1, h2]
    exact (if_neg some).trans frames
  case counts => exact ⟨if_neg done, if_neg done, if_neg done, if_neg done⟩
  case none => exact ⟨if_pos aborted, if_pos aborted, if_pos aborted, if_pos aborted⟩

/-! ## The entries at the end of a drain -/

/-- The head is finished by what was done of it, or as it was (R98). -/
theorem finishAs_of_drainedAs {e : Entry} {a : BlockStatus} (h : drainedAs e a) :
    e.finishAs e.drainStatus = { e with finished := some a } := by
  rcases h with finished | ⟨clear, all, none, part⟩
  · simp only [Entry.finishAs, finished]
    rw [← finished]
  · have status : e.drainStatus = a := by
      unfold Entry.drainStatus
      split
      · next h => exact (all h).symm
      · next h =>
        split
        · next h' => exact (none h h').symm
        · next h' => exact (part h h').symm
    simp only [Entry.finishAs, clear, status]

/-- A second entry is finished ABORTED, or as it was (log entry 25). -/
theorem finishAs_of_secondDrainedAs {e : Entry} {a : BlockStatus} (h : secondDrainedAs e a) :
    e.finishAs .aborted = { e with finished := some a } := by
  rcases h with finished | ⟨clear, rfl⟩
  · simp only [Entry.finishAs, finished]
    rw [← finished]
  · simp only [Entry.finishAs, clear]

/-! ## The cursor over the entries left -/

/-- Where the cursor stands depends on the ring indices alone. -/
theorem cursorIn_congr {l l' : List Entry} (same : l.map (·.ringIndex) = l'.map (·.ringIndex)) (k : Cursor) :
    cursorIn l k = cursorIn l' k := by
  have names : (l.any fun e => decide (e.ringIndex = k.ringIndex)) = l'.any fun e => decide (e.ringIndex = k.ringIndex) := by
    have := congrArg (List.any · fun n => decide (n = k.ringIndex)) same
    simpa [List.any_map, Function.comp_def] using this
  have head : (l.head?.map fun e => ({ ringIndex := e.ringIndex, moved := 0 } : Cursor)) =
      l'.head?.map fun e => { ringIndex := e.ringIndex, moved := 0 } := by
    have := congrArg (fun m : List Nat => m.head?.map fun n => ({ ringIndex := n, moved := 0 } : Cursor)) same
    simpa [List.head?_map, Function.comp_def] using this
  rw [cursorIn, names, head, cursorIn]

/-- Over one entry left the cursor stands there, whatever was before it. -/
theorem cursorIn_cursorIn (e1 e2 : Entry) (k : Cursor) : (cursorIn [e1, e2] k).bind (cursorIn [e2]) = cursorIn [e2] k := by
  unfold cursorIn
  by_cases named : e1.ringIndex = k.ringIndex ∨ e2.ringIndex = k.ringIndex
  · have kept : [e1, e2].any (fun e => decide (e.ringIndex = k.ringIndex)) = true := by simpa using named
    rw [if_pos kept]
    rfl
  · obtain ⟨h1, h2⟩ := not_or.1 named
    by_cases same : e2.ringIndex = e1.ringIndex
    · simp [h2, ← same]
    · simp [h1, h2, same]

/-! ## The end of a drain -/

/-- The context of a drained stream with the entries given left and `gone` entries retired. -/
def Stream.drainedTo (c : Stream) (left : List Entry) (gone : Nat) : Stream :=
  { c with
    drained := true
    list := left
    cursor := c.cursor.bind (cursorIn left)
    retire := if gone = 0 then c.retire else (c.retire + gone) % c.ringSize }

section
variable {s : State} {i : StreamId} {c : Stream} {e e2 : Entry}

theorem afterDrain_eq (s : State) (i : StreamId) (records : List Record) (left : List Entry) :
    s.afterDrain i records left =
      ({ s with comp.holding := s.comp.holding ++ records } : State).setStream i ((s.stream i).drainedTo left records.length) := by
  have none : records = [] ↔ records.length = 0 := List.length_eq_zero_iff.symm
  simp only [State.afterDrain, none]
  rfl

/-- The head of a drained stream retires with the cursor kept within the entries left (R54). -/
theorem popHead_drainedTo (gone : Nat) (left : List Entry)
    (cursor : (c.cursor.bind (cursorIn (e :: left))).bind (cursorIn left) = c.cursor.bind (cursorIn left)) :
    (c.drainedTo (e :: left) gone).popHead = c.drainedTo left (gone + 1) := by
  have retire : ((if gone = 0 then c.retire else (c.retire + gone) % c.ringSize) + 1) % c.ringSize =
      if gone + 1 = 0 then c.retire else (c.retire + (gone + 1)) % c.ringSize := by
    rw [if_neg (Nat.succ_ne_zero gone)]
    split
    · next none => rw [none]
    · rw [Nat.mod_add_mod, Nat.add_assoc]
  have size : (c.drainedTo (e :: left) gone).ringSize = c.ringSize := rfl
  unfold Stream.popHead Stream.cursorOver
  rw [size]
  simp only [Stream.drainedTo, List.tail_cons, if_true, cursor, retire]

/-- A finished head of a drained stream reports, whatever its flag says (R98). -/
theorem producesRecord_drainedTo (left : List Entry) (gone : Nat) (e : Entry) (a : BlockStatus) :
    producesRecord (c.drainedTo left gone) e a = true := producesRecord_iff.2 (.inr (.inr rfl))

/-- With a place free the finished head of a drained stream enters its record and leaves. -/
theorem retireHeads_drainedTo {a : BlockStatus} {left : List Entry} {gone : Nat} (n : Nat) (finished : e.finished = some a)
    (free : s.placesInUse < 32)
    (cursor : (c.cursor.bind (cursorIn (e :: left))).bind (cursorIn left) = c.cursor.bind (cursorIn left)) :
    retireHeads (n + 1) i (s.setStream i (c.drainedTo (e :: left) gone)) =
      retireHeads n i (({ s with comp.holding := s.comp.holding ++ [.blockDone (blockDoneOf i c.ringSize e a)] } : State).setStream i
        (c.drainedTo left (gone + 1))) := by
  have list : ((s.setStream i (c.drainedTo (e :: left) gone)).stream i).list = e :: left := by rw [stream_setStream_self]; rfl
  have reports : producesRecord ((s.setStream i (c.drainedTo (e :: left) gone)).stream i) e a = true := by
    rw [stream_setStream_self]
    exact producesRecord_drainedTo _ _ _ _
  rw [retireHeads_of_reporting list finished reports free, State.retireReporting, stream_setStream_self, popHead_drainedTo gone left cursor]
  simp only [State.enter, State.setStream, Vector.set_set]
  rfl

/-- With no place free it waits. -/
theorem retireHeads_drainedTo_full {a : BlockStatus} {left : List Entry} {gone : Nat} (n : Nat) (finished : e.finished = some a)
    (full : ¬ s.placesInUse < 32) :
    retireHeads n i (s.setStream i (c.drainedTo (e :: left) gone)) = s.setStream i (c.drainedTo (e :: left) gone) := by
  refine retireHeads_of_waiting (s := s.setStream i (c.drainedTo (e :: left) gone)) (e := e) (rest := left) (a := a) (by rw [stream_setStream_self]; rfl) finished ?_ full n
  rw [stream_setStream_self]
  exact producesRecord_drainedTo _ _ _ _

/-- At the end of the drain no entry has left yet. -/
theorem drain_eq (c : Stream) : c.drain = c.drainedTo (finishDrained c.list) 0 := by
  have indices : c.list.map (·.ringIndex) = (finishDrained c.list).map (·.ringIndex) := by rw [ringIndices_finishDrained]
  have cursor : c.cursor.bind (cursorIn c.list) = c.cursor.bind (cursorIn (finishDrained c.list)) :=
    congrArg (Option.bind c.cursor) (funext fun k => cursorIn_congr indices k)
  rw [Stream.drain, cursor]
  rfl

end

theorem drainFinishesEveryEntry : Claims.DrainFinishesEveryEntry := by
  intro s i size ready quiescing drained descriptor data hsize
  have done : (s.stream i).drainDone = true := by simp [Stream.drainDone, quiescing, drained, Stream.requestInFlight, descriptor, data]
  have row : exec (.drainFinished i) s =
      .next (retireHeads 2 i (s.setStream i ((s.stream i).drainedTo (finishDrained (s.stream i).list) 0))) := by
    rw [← drain_eq]
    exact congrArg Host.Outcome.next (if_pos ⟨ready, done⟩)
  rw [row]
  simp only [afterDrain_eq, List.append_nil, List.length_nil, List.length_cons, Nat.zero_add]
  subst hsize
  refine ⟨fun empty => ?none, fun e1 a1 list head => ⟨fun free => ?one, fun full => ?oneWaits⟩,
    fun e1 e2 a1 a2 list head second => ⟨fun free => ?both, fun last => ?first, fun full => ?neither⟩⟩
  case none =>
    rw [empty, retireHeads_of_nil (by rw [stream_setStream_self]; rfl)]
    rfl
  case one =>
    have entries : finishDrained (s.stream i).list = [{ e1 with finished := some a1 }] := by
      rw [list, finishDrained, finishAs_of_drainedAs head]; rfl
    rw [entries, retireHeads_drainedTo 1 rfl free (by cases (s.stream i).cursor <;> simp [cursorIn]),
      retireHeads_of_nil (by rw [stream_setStream_self]; rfl)]
    rfl
  case oneWaits =>
    have entries : finishDrained (s.stream i).list = [{ e1 with finished := some a1 }] := by
      rw [list, finishDrained, finishAs_of_drainedAs head]; rfl
    rw [entries, retireHeads_drainedTo_full 2 rfl (Nat.not_lt.mpr full)]
  all_goals
    have entries : finishDrained (s.stream i).list = [{ e1 with finished := some a1 }, { e2 with finished := some a2 }] := by
      rw [list, finishDrained, finishAs_of_drainedAs head, List.map_singleton, finishAs_of_secondDrainedAs second]
    have onward : ((s.stream i).cursor.bind (cursorIn [{ e1 with finished := some a1 }, { e2 with finished := some a2 }])).bind
        (cursorIn [{ e2 with finished := some a2 }]) = (s.stream i).cursor.bind (cursorIn [{ e2 with finished := some a2 }]) := by
      cases (s.stream i).cursor with
      | none => rfl
      | some k => exact cursorIn_cursorIn _ _ k
    rw [entries]
  case both =>
    have free' : ({ s with comp.holding := s.comp.holding ++ [.blockDone (blockDoneOf i (s.stream i).ringSize
        { e1 with finished := some a1 } a1)] } : State).placesInUse < 32 := by
      simp only [State.placesInUse, List.length_append, List.length_singleton] at free ⊢; omega
    rw [retireHeads_drainedTo 1 rfl (by omega) onward,
      retireHeads_drainedTo 0 rfl free' (by cases (s.stream i).cursor <;> simp [cursorIn])]
    simp only [List.append_assoc, List.singleton_append]
    rfl
  case first =>
    have full' : ¬ ({ s with comp.holding := s.comp.holding ++ [.blockDone (blockDoneOf i (s.stream i).ringSize
        { e1 with finished := some a1 } a1)] } : State).placesInUse < 32 := by
      simp only [State.placesInUse, List.length_append, List.length_singleton] at last ⊢; omega
    rw [retireHeads_drainedTo 1 rfl (by omega) onward, retireHeads_drainedTo_full 1 rfl full']
    rfl
  case neither => rw [retireHeads_drainedTo_full 2 rfl (Nat.not_lt.mpr full)]

/-- Settles O36. -/
theorem drainFinishesBlocks : Obligations.DrainFinishesBlocks := ⟨drainFinishesEveryEntry, blockDoneFields⟩

end Sys2Proof.Machine

/-!
Freed places and their claims (R96, R153, R169), and the ring writes that free them (R170, R171, R175).
-/
namespace Sys2Proof.Machine

/-! ## The lowest-numbered stream -/

/-- The first stream that has a property is the lowest-numbered. -/
theorem find_allStreams_eq_some {p : StreamId → Bool} {i : StreamId} :
    allStreams.find? p = some i ↔ p i = true ∧ ∀ j, j < i → p j = false := by
  rw [allStreams, List.find?_eq_some_iff_getElem]
  constructor
  · rintro ⟨here, k, inside, rfl, before⟩
    refine ⟨here, fun j less => ?_⟩
    have position : (List.finRange 32)[k] = ⟨k, by simpa using inside⟩ := List.getElem_finRange inside
    rw [position] at less
    simpa using before j.val less
  · rintro ⟨here, before⟩
    exact ⟨here, i.val, by simp, by simp, fun j less => by simpa using before ⟨j, by omega⟩ less⟩

section
variable {s : State} {i : StreamId} {e : Entry} {rest left : List Entry} {gone : Nat} {a : BlockStatus}

/-- A stream with its head finished waits. -/
theorem retirementWaiting_of_finished {c : Stream} (list : c.list = e :: rest) (finished : e.finished = some a) :
    c.retirementWaiting = true := by
  rw [Stream.retirementWaiting, list]
  simp [finished]

/-- A stream that waits has its head finished. -/
theorem exists_head_of_retirementWaiting {c : Stream} (waits : c.retirementWaiting = true) :
    ∃ e rest a, c.list = e :: rest ∧ e.finished = some a := by
  unfold Stream.retirementWaiting at waits
  split at waits
  · cases waits
  · next e rest list =>
    obtain ⟨a, finished⟩ := Option.isSome_iff_exists.1 waits
    exact ⟨e, rest, a, list, finished⟩

/-! ## The third claim (R96) -/

/-- Either the head alone leaves when it is served, or a silent second entry with it. -/
theorem exists_goneWithHead (c : Stream) (rest : List Entry) : ∃ left gone, GoneWithHead c rest left gone := by
  cases rest with
  | nil => exact ⟨[], 1, .inl ⟨rfl, rfl, fun _ _ h => nomatch h⟩⟩
  | cons e2 l =>
    cases finished : e2.finished with
    | none => exact ⟨e2 :: l, 1, .inl ⟨rfl, rfl, by rintro _ _ ⟨⟩; exact .inl finished⟩⟩
    | some a2 =>
      by_cases reports : e2.report = true ∨ a2 ≠ .complete ∨ c.drained = true
      · exact ⟨e2 :: l, 1, .inl ⟨rfl, rfl, by rintro _ _ ⟨⟩; exact .inr ⟨a2, finished, reports⟩⟩⟩
      · obtain ⟨silent, complete, drained⟩ : e2.report = false ∧ a2 = .complete ∧ c.drained = false := by simpa using reports
        exact ⟨l, 2, .inr ⟨e2, rfl, rfl, complete ▸ finished, silent, drained⟩⟩

/-- A served retirement is the one that the statements describe. -/
theorem serveRetirement_eq (list : (s.stream i).list = e :: rest) (finished : e.finished = some a)
    (behind : GoneWithHead (s.stream i) rest left gone) : s.serveRetirement i = s.retirementServed i e a left gone := by
  have popped : s.retireReporting i e a = s.retirementServed i e a rest 1 := by
    rw [State.retireReporting, State.retirementServed, Stream.popHead, Stream.cursorOver, list]
    rfl
  unfold State.serveRetirement
  rw [list]
  simp only [finished]
  rcases behind with ⟨rfl, rfl, stays⟩ | ⟨e2, rfl, rfl, complete, silent, drained⟩
  · rw [← popped]
    cases left with
    | nil => rfl
    | cons e2 l =>
      rcases stays e2 l rfl with clear | ⟨a2, done, reports⟩
      · simp only [clear]
      · simp only [done, producesRecord_iff.2 reports, if_true]
  · have quiet : producesRecord (s.stream i) e2 .complete = false := by simp [producesRecord, silent, drained]
    simp only [complete, quiet, Bool.false_eq_true, if_false]
    rw [State.retireSilently, popped]
    have context : (s.retirementServed i e a (e2 :: left) 1).stream i =
        { s.stream i with
          list := e2 :: left
          cursor := (s.stream i).cursor
          retire := ((s.stream i).retire + 1) % (s.stream i).ringSize } := by
      refine (stream_setStream_self _ i _).trans ?_
      rw [drained, if_neg Bool.false_ne_true]
    have size : ((s.retirementServed i e a (e2 :: left) 1).stream i).ringSize = (s.stream i).ringSize := by rw [context]; rfl
    have moved : (((s.stream i).retire + 1) % (s.stream i).ringSize + 1) % (s.stream i).ringSize =
        ((s.stream i).retire + 2) % (s.stream i).ringSize := by rw [Nat.mod_add_mod]
    rw [Stream.popHead, Stream.cursorOver, size, context]
    simp only [drained, Bool.false_eq_true, if_false, List.tail_cons, moved, State.retirementServed, State.setStream, Vector.set_set]

theorem placesInUse_retirementServed (s : State) (i : StreamId) (e : Entry) (a : BlockStatus) (left : List Entry) (gone : Nat) :
    (s.retirementServed i e a left gone).placesInUse = s.placesInUse + 1 := by
  simp [State.retirementServed, State.placesInUse]; omega

theorem placesInUse_commandServed (s : State) (ring : Ring) : (s.commandServed ring).placesInUse = s.placesInUse + 1 := by
  simp [State.commandServed, State.placesInUse]; omega

theorem placesInUse_lossServed (s : State) : s.lossServed.placesInUse = s.placesInUse + 1 := by
  simp [State.lossServed, State.placesInUse]; omega

/-! ## The end of a ring write (R170, R171, R175) -/

variable {k : CompletionConfig} {ring : Ring}

/-- The written record has left the list and the indices have moved on. -/
theorem recordWritten_eq (config : s.comp.config = some k) (inside : s.comp.produce < k.size) :
    ({ s.answered .completionUnit with comp := (s.answered .completionUnit).comp.recordWritten } : State) = s.afterRingWrite k := by
  have size : s.comp.ringSize = k.size := ringSize_of_config config
  have holdoff : s.comp.holdoffTime = k.holdoff := by simp [Completion.holdoffTime, config]
  have produce : (s.comp.produce + 1) % k.size = if s.comp.produce + 1 = k.size then 0 else s.comp.produce + 1 := by
    split
    · next h => rw [h, Nat.mod_self]
    · exact Nat.mod_eq_of_lt (by omega)
  simp only [answered_comp, Completion.recordWritten, size, holdoff, produce, State.afterRingWrite, List.drop_one]
  rfl

/-- The row hands the place on that the written record leaves (R169). -/
theorem exec_ringWriteDone (ready : s.host.engine = .ready) (config : s.comp.config = some k)
    (flying : s.inFlight .completionUnit = true) (inside : s.comp.produce < k.size) :
    exec .ringWriteDone s = .next (s.afterRingWrite k).handOn := by
  rw [← recordWritten_eq config inside]
  simp only [exec, execRingWriteDone, onAnswer_const flying (by simp [ready] : s.host.engine ≠ .resetting)]
  exact congrArg Host.Outcome.next (if_pos ready)

theorem placesInUse_afterRingWrite (holds : s.comp.holding ≠ []) : (s.afterRingWrite k).placesInUse + 1 = s.placesInUse := by
  have positive := List.length_pos_iff.2 holds
  simp only [State.afterRingWrite, State.placesInUse, List.length_drop]
  omega

/-- A place handed on serves the first claim, in the words of the statements (R169). -/
theorem firstClaimServed_handOn (ready : s.host.engine = .ready) (free : s.placesInUse < 32) (held : s.proc.ring = some ring)
    (claim : ¬ s.noClaim) : FirstClaimServed s s.handOn ring ∧ s.handOn.placesInUse = s.placesInUse + 1 := by
  rcases handOn_cases s with ⟨no, -⟩ | ⟨-, -, ⟨lost, served⟩ | ⟨none, waits, served⟩ | ⟨none, busy, ⟨i, stream, served⟩ | ⟨absent, -⟩⟩⟩
  · exact absurd ⟨ready, free⟩ no
  · rw [served]
    exact ⟨.inl ⟨lost, rfl⟩, placesInUse_lossServed s⟩
  · rw [served, readCommand_eq held]
    exact ⟨.inr (.inl ⟨none, waits, rfl⟩), placesInUse_commandServed s ring⟩
  · obtain ⟨waits, before⟩ := find_allStreams_eq_some.1 stream
    obtain ⟨e, rest, a, list, finished⟩ := exists_head_of_retirementWaiting waits
    obtain ⟨left, gone, behind⟩ := exists_goneWithHead (s.stream i) rest
    rw [served, serveRetirement_eq list finished behind]
    exact ⟨.inr (.inr ⟨none, busy, i, e, rest, left, gone, a, before, list, finished, behind, rfl⟩), placesInUse_retirementServed ..⟩
  · exact absurd ⟨none, busy, (waitingStream_eq_none_iff s).1 absent⟩ claim

/-- Without a claim, or without a place, nothing is handed on. -/
theorem handOn_of_idle (idle : s.noClaim ∨ 32 ≤ s.placesInUse) : s.handOn = s := by
  rcases handOn_cases s with ⟨-, same⟩ | ⟨-, free, rest⟩
  · exact same
  · obtain ⟨quiet, busy, streams⟩ := idle.resolve_right (by omega)
    rcases rest with ⟨lost, -⟩ | ⟨-, waits, -⟩ | ⟨-, -, ⟨i, stream, -⟩ | ⟨-, same⟩⟩
    · omega
    · exact absurd waits busy
    · rw [(waitingStream_eq_none_iff s).2 streams] at stream; cases stream
    · exact same

end

theorem ringWriteHandsItsPlaceOn : Claims.RingWriteHandsItsPlaceOn := by
  intro s k ring ready config held holds flying inside places claim
  have room := placesInUse_afterRingWrite (k := k) holds
  obtain ⟨served, used⟩ := firstClaimServed_handOn (s := s.afterRingWrite k) ready (by omega) held claim
  exact ⟨_, exec_ringWriteDone ready config flying inside, served, by omega⟩

theorem claimRowsServeInOrder : Claims.ClaimRowsServeInOrder := by
  intro s ring ready held
  have hand (free : s.placesInUse < 32) : s.placeToHand = true := (placeToHand_iff s).2 ⟨ready, free⟩
  refine ⟨fun free lost => ?loss, fun free none waits => ?command, fun i e rest left gone a free none busy before list finished behind => ?stream,
    fun idle => ?idle⟩
  case loss =>
    have some : s.comp.lossCount ≠ 0 := by omega
    exact ⟨congrArg Host.Outcome.next (if_pos ⟨hand free, lost⟩), congrArg Host.Outcome.next (if_neg fun h => some h.2.1),
      congrArg Host.Outcome.next (if_neg fun h => some h.2.1)⟩
  case command =>
    refine ⟨congrArg Host.Outcome.next ((if_pos ⟨hand free, none, waits⟩).trans (readCommand_eq held)),
      congrArg Host.Outcome.next (if_neg fun h => ?_), congrArg Host.Outcome.next (if_neg fun h => h.2.2 waits)⟩
    exact absurd h.2 (by omega)
  case stream =>
    have found : s.waitingStream = some i := find_allStreams_eq_some.2 ⟨retirementWaiting_of_finished list finished, before⟩
    refine ⟨?_, congrArg Host.Outcome.next (if_neg fun h => absurd h.2 (by omega)), congrArg Host.Outcome.next (if_neg fun h => busy h.2.2)⟩
    simp only [exec, execWaitingRetirementServed, hand free, none, busy, ne_eq, not_false_eq_true, and_self, if_true, found]
    rw [serveRetirement_eq list finished behind]
  case idle =>
    have full (h : 32 ≤ s.placesInUse) : ¬ s.placeToHand = true := fun k => absurd ((placeToHand_iff s).1 k).2 (by omega)
    refine ⟨congrArg Host.Outcome.next (if_neg ?_), congrArg Host.Outcome.next (if_neg ?_), ?_⟩
    · rintro ⟨place, lost⟩
      exact idle.elim (fun h => full h place) fun h => absurd h.1 (by omega)
    · rintro ⟨place, -, waits⟩
      exact idle.elim (fun h => full h place) fun h => h.2.1 waits
    · refine congrArg Host.Outcome.next (ite_eq_right_iff.2 ?_)
      rintro ⟨place, -, -⟩
      rw [(waitingStream_eq_none_iff s).2 (idle.resolve_left fun h => full h place).2.2]

/-- Settles O53. -/
theorem freedPlacesServeClaims : Obligations.FreedPlacesServeClaims := ⟨ringWriteHandsItsPlaceOn, claimRowsServeInOrder⟩

end Sys2Proof.Machine

/-!
The words of completion records as numbers (R195), words in host memory (R191), and the writing of records (R170, R175).
-/
namespace Sys2Proof.Machine

/-! ## Words as numbers -/

@[simp] theorem place_zero (n : Nat) : place 0 n = BitVec.ofNat 32 n := rfl

/-- A field placed above the bits of a number makes the sum a word. -/
theorem ofNat_or_place {a lo n : Nat} (below : a < 2 ^ lo) (inside : n * 2 ^ lo < 2 ^ 32) :
    BitVec.ofNat 32 a ||| place lo n = BitVec.ofNat 32 (a + 2 ^ lo * n) := by
  apply BitVec.eq_of_toNat_eq
  have low : (BitVec.ofNat 32 a).toNat < 2 ^ lo := lt_of_le_of_lt (by rw [BitVec.toNat_ofNat]; exact Nat.mod_le _ _) below
  have bound := (BitVec.ofNat 32 a ||| place lo n).isLt
  rw [toNat_or_place low inside] at bound ⊢
  rw [BitVec.toNat_ofNat] at bound ⊢
  rw [BitVec.toNat_ofNat, ← Nat.mod_add_mod, Nat.mod_eq_of_lt bound]

/-- A word is the number that it holds. -/
theorem ofNat_toNat (w : Word) : BitVec.ofNat 32 w.toNat = w := by
  simp

/-- A number below 2 ^ 32 is the value of the word that it makes. -/
theorem toNat_ofNat_of_lt {n : Nat} (h : n < 2 ^ 32) : (BitVec.ofNat 32 n).toNat = n := by
  rw [BitVec.toNat_ofNat, Nat.mod_eq_of_lt h]

/-! ## Completion records (R195) -/

theorem statusCodes_code (status : CommandStatus) : statusCodes[status.code]? = some status := by cases status <;> rfl

theorem reasonCodes_code (reason : ChangeReason) : reasonCodes[reason.code]? = some reason := by cases reason <;> rfl

theorem reasonCode_lt (reason : ChangeReason) : reason.code < 8 := by cases reason <;> decide

/-- Mark `k` of packed marks is bit `k`. -/
theorem testBit_packBits (marks : List Bool) : ∀ k, (packBits marks).testBit k = marks.getD k false := by
  induction marks with
  | nil => intro k; simp [packBits]
  | cons b rest ih =>
    intro k
    cases k with
    | zero => cases b <;> simp [packBits, flag, Nat.testBit_zero]
    | succ k =>
      have half : (flag b + 2 * packBits rest) / 2 = packBits rest := by have := flag_lt b; omega
      rw [packBits, Nat.testBit_succ, half, ih]
      simp

/-- As many marks as `n` pack into `n` bits. -/
theorem packBits_lt (marks : List Bool) : packBits marks < 2 ^ marks.length := by
  induction marks with
  | nil => simp [packBits]
  | cons b rest ih =>
    have := flag_lt b
    rw [packBits, List.length_cons, Nat.pow_succ]
    omega

/-- The levels of SET SENSE stand bit by bit: the eight sense lines, then the four markers. -/
theorem levels_word {sense markers : List Bool} (eight : sense.length = 8) (four : markers.length = 4) :
    (∀ k, k < 8 → (place 0 (packBits sense) ||| place 8 (packBits markers)).getLsbD k = sense.getD k false)
    ∧ (∀ m, m < 4 → (place 0 (packBits sense) ||| place 8 (packBits markers)).getLsbD (8 + m) = markers.getD m false)
    ∧ (place 0 (packBits sense) ||| place 8 (packBits markers)).toNat < 2 ^ 12 := by
  have low := packBits_lt sense
  have high := packBits_lt markers
  rw [eight] at low
  rw [four] at high
  have value : (place 0 (packBits sense) ||| place 8 (packBits markers)).toNat = packBits sense + 2 ^ 8 * packBits markers := by
    rw [place_zero, ofNat_or_place low (by omega), toNat_ofNat_of_lt (by omega)]
  refine ⟨fun k inside => ?_, fun m inside => ?_, by omega⟩
  · rw [BitVec.getLsbD, value, Nat.add_comm, Nat.testBit_two_pow_mul_add _ low, if_pos inside, testBit_packBits]
  · rw [BitVec.getLsbD, value, Nat.add_comm, Nat.testBit_two_pow_mul_add _ low, if_neg (by omega), Nat.add_sub_cancel_left,
      testBit_packBits]

/-- Words 3 and 4 of a COMMAND_DONE record hold the result's numbers. -/
theorem resultNumbers_words {result : CommandResult} (range : resultInRange result) :
    resultNumbers result result.words.1 result.words.2 := by
  have value {n : Nat} (h : n < 2 ^ 16) : (place 0 n).toNat = n := toNat_place_zero (by omega)
  cases result with
  | none => exact ⟨rfl, rfl⟩
  | freePool n => exact ⟨value range, rfl⟩
  | closed r n => exact ⟨value range.1, value range.2⟩
  | ringIndex n => exact ⟨value range, rfl⟩
  | placements n => exact ⟨value range, rfl⟩
  | change n reason j =>
    have code := reasonCode_lt reason
    refine ⟨value range, reason.code, reasonCodes_code reason, ?_⟩
    cases j with
    | none =>
      change (place 0 reason.code ||| 0#32).toNat = reason.code + 2 ^ 8 * 0
      rw [BitVec.or_zero, value (by omega), Nat.mul_zero, Nat.add_zero]
    | some j =>
      change (place 0 reason.code ||| place 8 j.val).toNat = reason.code + 2 ^ 8 * j.val
      rw [place_zero, ofNat_or_place (by omega) (by omega), toNat_ofNat_of_lt (by omega)]
  | swapped g f =>
    have small := g.isLt
    cases f with
    | none => exact ⟨value (by omega), rfl⟩
    | some f =>
      refine ⟨?_, rfl⟩
      change (place 0 g.toNat ||| place 8 1).toNat = g.toNat + 2 ^ 8
      rw [place_zero, ofNat_or_place (by omega) (by omega), toNat_ofNat_of_lt (by omega), Nat.mul_one]
  | lacking i => exact ⟨value (by omega), rfl⟩
  | levels sense markers =>
    intro eight four
    obtain ⟨low, high, bound⟩ := levels_word eight four
    exact ⟨low, high, bound, rfl⟩
  | posted b => exact ⟨value (by have := flag_lt b; omega), rfl⟩

theorem doneRecordWords : Claims.DoneRecordWords := by
  refine ⟨fun pass c status result index range => ⟨result.words.1, result.words.2, status.code, statusCodes_code status,
    resultNumbers_words range, ?command⟩, fun pass b index done retire fresh stale damaged missing => ?block⟩
  case command =>
    have mark := flag_lt pass
    simp (disch := omega) only [Record.words, place_zero, ofNat_or_place]
    rfl
  case block =>
    have mark := flag_lt pass
    have status : b.status.code < 4 := by cases b.status <;> decide
    simp (disch := omega) only [Record.words, place_zero, ofNat_or_place]
    cases b.status <;> cases b.frames <;> rfl

theorem eventRecordWords : Claims.EventRecordWords := by
  intro pass e kind n1 n2 n3 n4 numbers
  have mark := flag_lt pass
  have words : e.words = (kind, BitVec.ofNat 32 n1, BitVec.ofNat 32 n2, BitVec.ofNat 32 n3, BitVec.ofNat 32 n4) ∧ kind < 16 := by
    cases e with
    | streamFault i c n =>
      have code : c.code < 4 := by cases c <;> decide
      cases numbers
      simp (disch := omega) only [Event.words, place_zero, ofNat_or_place]
      exact ⟨by cases c <;> rfl, by decide⟩
    | linkDown c f n =>
      cases numbers
      exact ⟨by simp only [Event.words, place_zero, ofNat_toNat]; cases c <;> rfl, by decide⟩
    | senseEdge k e stamp n =>
      have code : edgeCode e < 2 := by cases e <;> decide
      have line := k.isLt
      cases stamp with
      | none =>
        cases numbers
        simp (disch := omega) only [Event.words, place_zero, ofNat_or_place]
        exact ⟨by cases e <;> rfl, by decide⟩
      | some stamp =>
        cases numbers
        simp (disch := omega) only [Event.words, place_zero, ofNat_or_place, ofNat_toNat]
        exact ⟨by cases e <;> rfl, by decide⟩
    | streamStarved | streamResumed | streamOverrun | streamRecovered | linkDegraded | linkRestored | strayNotify | eventLoss
    | hostPosted =>
      cases numbers
      exact ⟨by simp only [Event.words, place_zero, ofNat_toNat]; rfl, by decide⟩
  obtain ⟨words, small⟩ := words
  simp (disch := omega) only [Record.words, words, place_zero, ofNat_or_place]
  rfl

/-! ## Words in host memory (R191) -/

/-- Byte `4k + j` of words is byte `j` of word `k`. -/
theorem recordBytes_getElem? {words : List Word} {w : Word} {j : Nat} (inside : j < 4) :
    ∀ k, words[k]? = some w → (recordBytes words)[4 * k + j]? = some (BitVec.ofNat 8 (w.toNat / 2 ^ (8 * j))) := by
  have byte (lo : Nat) (w : Word) : BitVec.ofNat 8 (field w lo 8) = BitVec.ofNat 8 (w.toNat / 2 ^ lo) := by
    apply BitVec.eq_of_toNat_eq
    simp [field, Nat.shiftRight_eq_div_pow]
  induction words with
  | nil => intro k h; simp at h
  | cons x rest ih =>
    intro k h
    cases k with
    | zero =>
      obtain rfl : x = w := by simpa using h
      have cases : j = 0 ∨ j = 1 ∨ j = 2 ∨ j = 3 := by omega
      rcases cases with rfl | rfl | rfl | rfl <;> simp [byte]
    | succ k =>
      have next := ih k (by simpa using h)
      have position : 4 * (k + 1) + j = 4 * k + j + 4 := by omega
      rw [recordBytes_cons, position]
      simpa using next

/-- Memory that holds bytes at addresses reads them back. -/
theorem map_eq_of_zip {l : List Addr} {bytes : List Byte} (memory : Addr → Byte) (same : l.length = bytes.length)
    (holds : ∀ p ∈ l.zip bytes, memory p.1 = p.2) : l.map memory = bytes := by
  have first : (l.zip bytes).map (·.1) = l := List.map_fst_zip (Nat.le_of_eq same)
  have second : (l.zip bytes).map (·.2) = bytes := List.map_snd_zip (Nat.le_of_eq same.symm)
  calc l.map memory = (l.zip bytes).map (fun p => memory p.1) := by rw [← first, List.map_map]; simp [first, Function.comp_def]
    _ = (l.zip bytes).map (·.2) := List.map_congr_left holds
    _ = bytes := second

theorem wordsStandInMemory : Claims.WordsStandInMemory := by
  intro q words write
  have bytes : q.bytesWritten = (byteAddresses q.address (4 * words.length)).zip (recordBytes words) := by
    rw [Request.bytesWritten, write]
  rw [bytes]
  refine ⟨by simp, fun k j w word inside => ?byte, fun memory r holds same read => ?read⟩
  case byte =>
    have below : k < words.length := (List.getElem?_eq_some_iff.1 word).1
    have address : (byteAddresses q.address (4 * words.length))[4 * k + j]? =
        some (hostAddress (q.address.toNat + (4 * k + j))) := by
      simp [byteAddresses, List.getElem?_range (show 4 * k + j < 4 * words.length by omega)]
    rw [List.getElem?_zip_eq_some]
    exact ⟨address, recordBytes_getElem? inside k word⟩
  case read =>
    rw [Request.wordsRead, read]
    dsimp only
    rw [same, map_eq_of_zip memory (by simp) holds, recordWords_recordBytes]

/-! ## The writing of records and the holdoff timer (R170, R175) -/

theorem recordsAreWritten : Claims.RecordsAreWritten := by
  intro s k ready config
  refine ⟨fun r rest holds quiet room => ?issues, fun idle => ?none, fun holds flying inside idle => ?done⟩
  case issues =>
    have row : exec .ringWriteIssue s = .next (s.issue .completionUnit (hostAddress (k.base.toNat + 32 * s.comp.produce))
        (.write (r.words s.comp.passMark))) := by
      simp only [exec, execRingWriteIssue, State.tryRingWrite, config, holds, ready, quiet, room, and_self, if_true]
    exact row
  case none =>
    refine congrArg Host.Outcome.next ?_
    unfold State.tryRingWrite
    split
    · next k' r rest config' holds =>
      cases config.symm.trans config'
      refine if_neg ?_
      rintro ⟨-, quiet, room⟩
      rcases idle with h | h | h
      · simp [h] at holds
      · simp [h] at quiet
      · omega
    · rfl
  case done =>
    have places := placesInUse_afterRingWrite (k := k) holds
    have positive := List.length_pos_iff.2 holds
    rw [exec_ringWriteDone ready config flying inside, handOn_of_idle]
    refine idle.imp id fun full => ?_
    simp only [State.afterRingWrite, State.placesInUse, List.length_drop]
    exact full

theorem holdoffTimerExpires : Claims.HoldoffTimerExpires := by
  refine fun s => ⟨fun ready running => ⟨_, congrArg Host.Outcome.next (if_pos ⟨ready, running⟩), rfl, ?_⟩,
    fun other => congrArg Host.Outcome.next (if_neg other)⟩
  exact (interruptLine_iff _).2 (.inr (.inr ⟨ready, rfl⟩))

/-- Settles O52. -/
theorem ringWritesAndHoldoff : Obligations.RingWritesAndHoldoff :=
  ⟨recordsAreWritten, doneRecordWords, eventRecordWords, wordsStandInMemory, holdoffTimerExpires⟩

end Sys2Proof.Machine

/-!
QUERY STREAM (R58) and the words of a snapshot as numbers (R198).
-/
namespace Sys2Proof.Machine

/-! ## QUERY STREAM -/

section
variable {s : State} {r : CommandRecord} {i : StreamId}

theorem exec_queryStream_of_taking (taking : s.Taking) :
    exec (.queryStream r) s = .next (s.afterTaking.queryStream r (s.taken 0x13 r)).looked := by
  rw [← lookForCommand_eq_looked]
  exact takeCommand_of_taking taking 0x13 r (State.queryStream r)

theorem queryFields_of_bad (bad : 31 < field r.w1 0 8 ∨ (address r.w2 r.w3).toNat % 64 ≠ 0) : queryFields r = none := by
  unfold queryFields
  split
  · rfl
  · next i stream =>
    have inside := streamOf_eq_some.1 stream
    exact if_neg (bad.resolve_left (by omega))

theorem queryFields_of_good (stream : field r.w1 0 8 = i.val) (aligned : (address r.w2 r.w3).toNat % 64 = 0) :
    queryFields r = some (i, address r.w2 r.w3) := by
  simp only [queryFields, streamField_of_eq stream, aligned, if_true]

/-- A held command's answer goes to its owner in READY (R58, R69, R72). -/
theorem onHeldAnswer_of_held {tag : Requester} {q : Request} {c : Command} (ready : s.host.engine = .ready)
    (request : s.request tag = some q) (held : s.proc.state = .held c) (k : Command → Request → State → State) :
    s.onHeldAnswer tag k = .next (k c q (s.answered tag)) := by
  rw [State.onHeldAnswer, onAnswer_of_request request (by simp [ready])]
  simp only [answered_host, ready, answered_proc, held, if_true]

/-- Of a CLOSED stream with no marker and in no bank every word is 0. -/
theorem snapshot_of_reset (closed : s.stream i = Stream.reset) (unbound : s.markerOf i = none) (unnamed : s.inSchedule i = false) :
    s.snapshot i = List.replicate 16 0 := by
  obtain ⟨active, pending⟩ : s.sched.active.names i = false ∧ s.sched.pending.names i = false := by
    simpa [State.inSchedule] using unnamed
  rw [State.snapshot, closed, unbound, active, pending]
  rfl

end

theorem queryTaken : Claims.QueryTaken := by
  refine ⟨fun s r taking => ⟨fun bad => ?bad, fun i stream aligned => ?issues⟩, fun s c error ready flying held => ?done,
    fun s i closed unbound unnamed => snapshot_of_reset closed unbound unnamed⟩
  case bad =>
    rw [exec_queryStream_of_taking taking, State.queryStream, queryFields_of_bad bad]
    dsimp only
    rw [endPlain_of_idle _ _ _ (afterTaking_proc_state s)]
  case issues =>
    rw [exec_queryStream_of_taking taking, State.queryStream, queryFields_of_good stream aligned]
    dsimp only
    rw [looked_hold]
    rfl
  case done =>
    obtain ⟨q, request⟩ := request_of_inFlight flying
    simp only [exec, execSnapshotWriteDone, onHeldAnswer_of_held ready request held, State.endHeld, lookForCommand_eq_looked]
    rfl

/-! ## The words of a snapshot -/

section
variable {s : State} {i : StreamId} {c : Stream} {sh : Shape} {a b d : Nat}

/-- The value of two fields of a word. -/
theorem toNat_two_fields {lo : Nat} (ha : a < 2 ^ lo) (hb : b * 2 ^ lo < 2 ^ 32) (small : lo ≤ 32) :
    (place 0 a ||| place lo b).toNat = a + 2 ^ lo * b := by
  have first : (place 0 a).toNat = a := toNat_place_zero (lt_of_lt_of_le ha (Nat.pow_le_pow_right (by decide) small))
  rw [toNat_or_place (first.symm ▸ ha) hb, first]

/-- The value of a third field placed above two. -/
theorem toNat_third_field {x : Word} {n lo : Nat} (hx : x.toNat = n) (hn : n < 2 ^ lo) (hd : d * 2 ^ lo < 2 ^ 32) :
    (x ||| place lo d).toNat = n + 2 ^ lo * d := by
  rw [toNat_or_place (hx ▸ hn) hd, hx]

/-- The two words of an address make it again. -/
theorem address_words (x : Addr) : address (lowWord x) (highWord x) = x := by
  apply BitVec.eq_of_toNat_eq
  have := x.isLt
  simp only [address, lowWord, highWord, BitVec.toNat_ofNat, Nat.shiftRight_eq_div_pow]
  omega

/-- The four codes of a direction and a mode. -/
theorem kindCodes_le (kind : StreamKind) : kind.codes.1 ≤ 1 ∧ kind.codes.2 ≤ 1 := by
  cases kind with
  | outStream policy => cases policy <;> decide
  | inStream mode => cases mode <;> decide

/-- The shape words of a stream with a legal shape. -/
theorem shapeShown_of_legal (shape : c.shape = some sh) (legal : sh.legal) (staged : c.stagedWords < 2 ^ 16) :
    shapeShown sh c.stagedWords fun n => (shapeWords c).getD (n - 2) 0 := by
  obtain ⟨-, channels, period, phase, depth, -, -, size⟩ := legal
  have periods : sh.period ≤ 64 := (show ∀ n ∈ periods, n ≤ 64 by decide) _ period
  have depths : sh.depth ≤ 128 := (show ∀ n ∈ stagingDepths, n ≤ 128 by decide) _ depth
  have sizes : sh.ringSize ≤ 1024 := (show ∀ n ∈ ringSizes, n ≤ 1024 by decide) _ size
  obtain ⟨direction, mode⟩ := kindCodes_le sh.kind
  rw [shapeWords, shape]
  refine ⟨?_, ?_, rfl, address_words sh.ringBase, toNat_place_zero (by omega)⟩
  · have two := toNat_two_fields (a := sh.kind.codes.1) (b := sh.channels) (lo := 8) (by omega) (by omega) (by omega)
    have three := toNat_third_field (d := sh.period) (lo := 16) two (by omega) (by omega)
    refine (toNat_third_field (d := sh.phase) (lo := 24) three (by omega) (by omega)).trans ?_
    cases sh.kind with
    | outStream policy => cases policy <;> rfl
    | inStream mode => cases mode <;> rfl
  · have two := toNat_two_fields (a := sh.kind.codes.2) (b := sh.depth) (lo := 8) (by omega) (by omega) (by omega)
    refine (toNat_third_field (d := c.stagedWords) (lo := 16) two (by omega) (by omega)).trans ?_
    cases sh.kind with
    | outStream policy => cases policy <;> rfl
    | inStream mode => cases mode <;> rfl

/-- Six words tell the shape. -/
theorem shapeWords_length (c : Stream) : (shapeWords c).length = 6 := by
  unfold shapeWords
  split <;> rfl

/-- The marker bound to a stream, where one line alone is. -/
theorem markerOf_of_unique {m : MarkerId} {x : Binding} (bound : s.lines.markers[m].binding = some x) (own : x.stream = i)
    (unique : ∀ (m' : MarkerId) (x' : Binding), s.lines.markers[m'].binding = some x' → x'.stream = i → m' = m) :
    s.markerOf i = some (m, x.advance) := by
  have here : (match s.lines.markers[m].binding with
      | some b => if b.stream = i then some (m, b.advance) else none
      | none => none) = some (m, x.advance) := by rw [bound]; exact if_pos own
  cases found : s.markerOf i with
  | none => exact absurd (here.symm.trans (List.findSome?_eq_none_iff.1 found m (List.mem_finRange m))) (by simp)
  | some pair =>
    obtain ⟨m', -, taken⟩ := List.exists_of_findSome?_eq_some found
    split at taken
    · next b binding =>
      split at taken
      · next stream =>
        cases taken
        obtain rfl := unique m' b binding stream
        cases bound.symm.trans binding
        rfl
      · cases taken
    · cases taken

theorem markerOf_of_unbound (unbound : ∀ (m : MarkerId) (x : Binding), s.lines.markers[m].binding = some x → x.stream ≠ i) :
    s.markerOf i = none := by
  refine List.findSome?_eq_none_iff.2 fun m _ => ?_
  split
  · next b binding => exact if_neg (unbound m b binding)
  · rfl

/-- The counts that a stream's context may hold are in the ranges of their fields. -/
theorem counts_of_streamsInv (h : StreamsInv s)
    (closed : (s.stream i).shape = none →
      (s.stream i).producer < 2 ^ 16 ∧ (s.stream i).fetch < 2 ^ 16 ∧ (s.stream i).retire < 2 ^ 16 ∧ (s.stream i).list.length < 2 ^ 8) :
    (s.stream i).producer < 2 ^ 16 ∧ (s.stream i).fetch < 2 ^ 16 ∧ (s.stream i).retire < 2 ^ 16 ∧ (s.stream i).list.length < 2 ^ 8 := by
  cases shape : (s.stream i).shape with
  | none => exact closed shape
  | some sh =>
    obtain ⟨-, -, -, ring⟩ := h
    obtain ⟨legal, producer, retire, fetch, length, -⟩ := ring i sh shape
    have positive := ringSize_pos legal
    obtain ⟨-, -, -, -, -, -, -, size⟩ := legal
    have sizes : sh.ringSize ≤ 1024 := (show ∀ n ∈ ringSizes, n ≤ 1024 by decide) _ size
    have fetched : (s.stream i).fetch < sh.ringSize := fetch ▸ Nat.mod_lt _ positive
    omega

end

theorem snapshotShows : Claims.SnapshotShows := by
  intro s i c w inv context words closed staged run done advances
  subst context
  obtain ⟨producer, fetch, retire, length⟩ := counts_of_streamsInv inv closed
  have six := shapeWords_length (s.stream i)
  have shapes (n : Nat) (inside : n < 6) : w (n + 2) = (shapeWords (s.stream i)).getD n 0 := by
    rw [words, State.snapshot]
    simp only [List.getD_eq_getElem?_getD, List.append_assoc]
    rw [List.getElem?_append_right (by simp), List.length_cons, List.length_singleton, Nat.add_sub_cancel,
      List.getElem?_append_left (by omega)]
  have rest (n : Nat) : w (n + 8) = ((s.snapshot i).drop 8).getD n 0 := by
    rw [words]
    simp [List.getD_eq_getElem?_getD, Nat.add_comm]
  have tail : (s.snapshot i).drop 8 =
      [place 0 (s.stream i).producer ||| place 16 (s.stream i).fetch,
       place 0 (s.stream i).retire ||| place 16 (s.stream i).list.length ||| place 24 (flag (s.stream i).retirementWaiting)
         ||| place 25 (flag (s.stream i).dataInFlight.isSome),
       (match (s.stream i).list with | [] => 0 | e :: _ => place 0 e.done),
       markerWord (s.markerOf i),
       place 0 (flag (s.stream i).runFlag) ||| place 16 (s.stream i).runCount,
       (match (s.stream i).faultCause with | none => 0 | some f => place 0 f.code),
       place 0 (flag (s.sched.active.names i)) ||| place 1 (flag (s.sched.pending.names i)), 0] :=
    List.drop_left' (by rw [List.length_append, six]; rfl)
  have total : (s.snapshot i).length = 16 := by
    have dropped := congrArg List.length tail
    rw [List.length_drop] at dropped
    simp only [List.length_cons, List.length_nil] at dropped
    omega
  have word (n : Nat) := tail ▸ rest n
  refine ⟨total, fun ready => ?state, ?reserved, fun shapeless => ?shapeless, fun sh shape => ?shape, ?indices, ?list, ?progress,
    fun unbound => ?unbound, fun m x bound own unique => ?bound, ?run, ?fault, ?banks, word 7⟩
  case state =>
    rw [words]
    change (place 0 (s.stream i).state.code).toNat = _
    cases state : (s.stream i).state
    case quiescing => exact absurd state ready
    all_goals rfl
  case reserved => rw [words]; rfl
  case shapeless =>
    have zero (n : Nat) (inside : n < 6) : w (n + 2) = 0 := by
      rw [shapes n inside, shapeWords, shapeless]
      rcases (by omega : n = 0 ∨ n = 1 ∨ n = 2 ∨ n = 3 ∨ n = 4 ∨ n = 5) with rfl | rfl | rfl | rfl | rfl | rfl <;> rfl
    exact ⟨zero 0 (by decide), zero 1 (by decide), zero 2 (by decide), zero 3 (by decide), zero 4 (by decide), zero 5 (by decide)⟩
  case shape =>
    obtain ⟨-, -, -, ring⟩ := inv
    obtain ⟨legal, -⟩ := ring i sh shape
    have shown := shapeShown_of_legal shape legal staged
    rw [shapeShown] at shown ⊢
    rw [shapes 0 (by decide), shapes 1 (by decide), shapes 2 (by decide), shapes 3 (by decide), shapes 4 (by decide), shapes 5 (by decide)]
    exact shown
  case indices => exact (congrArg BitVec.toNat (word 0)).trans (toNat_two_fields producer (by omega) (by decide))
  case list =>
    have waiting := flag_lt (s.stream i).retirementWaiting
    have flying := flag_lt (s.stream i).dataInFlight.isSome
    have two := toNat_two_fields (a := (s.stream i).retire) (b := (s.stream i).list.length) (lo := 16) retire (by omega) (by decide)
    have three := toNat_third_field (d := flag (s.stream i).retirementWaiting) (lo := 24) two (by omega) (by omega)
    have four := toNat_third_field (d := flag (s.stream i).dataInFlight.isSome) (lo := 25) three (by omega) (by omega)
    refine (congrArg BitVec.toNat (word 1)).trans (four.trans ?_)
    have waits : flag (s.stream i).retirementWaiting =
        (match (s.stream i).list with | [] => 0 | e :: _ => if e.finished = none then 0 else 1) := by
      unfold Stream.retirementWaiting
      cases (s.stream i).list with
      | nil => rfl
      | cons e l => cases finished : e.finished <;> simp [finished, flag]
    have flies : flag (s.stream i).dataInFlight.isSome = if (s.stream i).dataInFlight = none then 0 else 1 := by
      cases (s.stream i).dataInFlight <;> rfl
    exact congrArg₂ (fun x y => (s.stream i).retire + 2 ^ 16 * (s.stream i).list.length + 2 ^ 24 * x + 2 ^ 25 * y) waits flies
  case progress =>
    refine (congrArg BitVec.toNat (word 2)).trans ?_
    change BitVec.toNat (match (s.stream i).list with | [] => 0 | e :: _ => place 0 e.done) = _
    cases list : (s.stream i).list with
    | nil => rfl
    | cons e l =>
      have small := done e (by rw [list]; exact List.mem_cons_self)
      exact toNat_place_zero (by omega)
  case unbound =>
    have marker : w 11 = markerWord (s.markerOf i) := word 3
    rw [marker, markerOf_of_unbound unbound]
    rfl
  case bound =>
    have marker : w 11 = markerWord (s.markerOf i) := word 3
    have advance := advances m x bound
    have line := m.isLt
    rw [marker, markerOf_of_unique bound own unique]
    have two := toNat_two_fields (a := 1) (b := m.val) (lo := 8) (by decide) (by omega) (by decide)
    exact toNat_third_field (d := x.advance) (lo := 16) two (by omega) (by omega)
  case run =>
    have set := flag_lt (s.stream i).runFlag
    exact (congrArg BitVec.toNat (word 4)).trans (toNat_two_fields (a := flag (s.stream i).runFlag) (by omega) (by omega) (by decide))
  case fault =>
    refine (congrArg BitVec.toNat (word 5)).trans ?_
    change BitVec.toNat (match (s.stream i).faultCause with | none => 0 | some f => place 0 f.code) = _
    cases (s.stream i).faultCause with
    | none => rfl
    | some f => cases f <;> rfl
  case banks =>
    have active := flag_lt (s.sched.active.names i)
    have pending := flag_lt (s.sched.pending.names i)
    exact (congrArg BitVec.toNat (word 6)).trans
      (toNat_two_fields (a := flag (s.sched.active.names i)) (lo := 1) (by omega) (by omega) (by decide))

/-- Settles O35. -/
theorem queryWritesSnapshot : Obligations.QueryWritesSnapshot := ⟨queryTaken, snapshotShows⟩

end Sys2Proof.Machine

/-!
The Slot Schedule's commands (Chapter 4): LOAD SCHEDULE with its change list, and COMMIT SCHEDULE.
-/
namespace Sys2Proof.Machine

/-! ## LOAD SCHEDULE (R68, R69, R84) -/

section
variable {s : State} {r : CommandRecord} {basis : Basis}

theorem exec_loadSchedule_of_taking (taking : s.Taking) :
    exec (.loadSchedule r) s = .next (s.afterTaking.loadSchedule r (s.taken 0x20 r)).looked := by
  rw [← lookForCommand_eq_looked]
  exact takeCommand_of_taking taking 0x20 r (State.loadSchedule r)

/-- The code of a basis (12.4). -/
def Basis.word : Basis → Word
  | .empty => 0
  | .active => 1
  | .pending => 2

theorem basisOf_word (basis : Basis) : basisOf basis.word = some basis := by cases basis <;> rfl

/-- A word is a basis when it is at most 2. -/
theorem exists_basis_iff (w : Word) : (∃ basis, basisOf w = some basis) ↔ w.toNat ≤ 2 := by
  unfold basisOf
  constructor
  · rintro ⟨basis, h⟩
    split at h
    · next zero => rw [zero]; decide
    · split at h
      · next one => rw [one]; decide
      · split at h
        · next two => rw [two]; decide
        · cases h
  · intro small
    have codes : w = 0 ∨ w = 1 ∨ w = 2 := by bv_omega
    rcases codes with rfl | rfl | rfl <;> exact ⟨_, rfl⟩

theorem loadFields_of_good (code : r.w4 = basis.word) (count : 1 ≤ r.w3.toNat ∧ r.w3.toNat ≤ 512)
    (aligned : (address r.w1 r.w2).toNat % 4 = 0) : loadFields r = some (address r.w1 r.w2, r.w3.toNat, basis) := by
  rw [loadFields, code, basisOf_word]
  exact if_pos ⟨count.1, count.2, aligned⟩

theorem loadFields_of_bad
    (bad : ¬ (1 ≤ r.w3.toNat ∧ r.w3.toNat ≤ 512 ∧ (address r.w1 r.w2).toNat % 4 = 0 ∧ r.w4.toNat ≤ 2)) : loadFields r = none := by
  unfold loadFields
  split
  · rfl
  · next basis read =>
    have small := (exists_basis_iff r.w4).1 ⟨basis, read⟩
    exact if_neg fun ⟨low, high, aligned⟩ => bad ⟨low, high, aligned, small⟩

theorem basisBank_eq (s : State) (basis : Basis) : s.basisBank basis = workingCopy s basis := by cases basis <;> rfl

theorem hostAddress_toNat (a : Addr) : hostAddress a.toNat = a := by
  rw [hostAddress, if_pos a.isLt]
  simp

/-- A LOAD that is performed issues its first read, from the list's address (R69). -/
theorem performLoad_eq (s : State) (a : Addr) (count : Nat) (basis : Basis) :
    s.performLoad a count basis =
      { s with
        sched.load := .performing (workingCopy s basis) a count 0
        port := s.port ++ [{ requester := .scheduleUnit, address := a, transfer := .read (min 16 count) }] } := by
  rw [State.performLoad, State.readChanges, basisBank_eq, Nat.mul_zero, Nat.add_zero, hostAddress_toNat, Nat.sub_zero]
  rfl

end

/-- Settles O39: each clause takes one branch of R68; a LOAD that is held or performed holds the processor. -/
theorem loadScheduleTaken : Obligations.LoadScheduleTaken := by
  refine ⟨fun s r valid taking meaning => ?taken, fun s a count basis ready load => ⟨fun marked => ?waits, fun clear => ?performed⟩⟩
  case waits => exact congrArg Host.Outcome.next (if_neg fun h => by simp [marked] at h)
  case performed =>
    simp only [exec, execHeldLoadPerformed, ready, clear, load, and_self, if_true, performLoad_eq]
  case taken =>
    have ends := fun c status => endPlain_of_idle s.afterTaking c status (afterTaking_proc_state s)
    rw [exec_loadSchedule_of_taking taking]
    refine ⟨fun bad => ?bad, fun good armed => ?armed, fun basis good code free => ?good⟩
    case bad =>
      rw [State.loadSchedule, loadFields_of_bad (mt meaning.2 bad)]
      dsimp only
      rw [ends]
    case armed =>
      obtain ⟨low, high, aligned, small⟩ := meaning.1 good
      obtain ⟨basis, read⟩ := (exists_basis_iff r.w4).2 small
      have armed' : s.afterTaking.sched.swapArmed = true := armed
      have fields : loadFields r = some (address r.w1 r.w2, r.w3.toNat, basis) := by
        rw [loadFields, read]
        exact if_pos ⟨low, high, aligned⟩
      simp only [State.loadSchedule, fields, armed', if_true, ends]
    case good =>
      obtain ⟨low, high, aligned, -⟩ := meaning.1 good
      have word : r.w4 = basis.word := code.trans (by cases basis <;> rfl)
      have free' : s.afterTaking.sched.swapArmed = false := free
      have fields := loadFields_of_good word ⟨low, high⟩ aligned
      refine ⟨fun marked => ?_, fun clear => ?_⟩
      · have marked' : s.afterTaking.sched.retiring = true := marked
        simp only [State.loadSchedule, fields, free', marked', Bool.false_eq_true, if_false, if_true, looked_hold]
        rfl
      · have clear' : s.afterTaking.sched.retiring = false := clear
        simp only [State.loadSchedule, fields, free', clear', Bool.false_eq_true, if_false, looked_hold, performLoad_eq]
        cases basis <;> rfl

/-! ## The change list (R69, R72) -/

theorem changesApplyInOrder : Claims.ChangesApplyInOrder := by
  intro s n working
  refine ⟨rfl, fun before after w made applied => ?_⟩
  induction before generalizing n working with
  | nil =>
    cases applied
    exact ⟨fun bank h => by simp [State.applyChanges, h], fun status reason j h => by simp [State.applyChanges, h]⟩
  | cons x rest ih =>
    rw [State.applyChanges] at applied
    cases change : s.applyChange working x with
    | failed status reason j => rw [change] at applied; cases applied
    | applied next =>
      rw [change] at applied
      obtain ⟨good, bad⟩ := ih (n + 1) next applied
      refine ⟨fun bank h => ?_, fun status reason j h => ?_⟩
      · rw [List.cons_append, State.applyChanges, change]
        exact good bank h
      · have position : n + (x :: rest).length = n + 1 + rest.length := by rw [List.length_cons]; omega
        rw [List.cons_append, State.applyChanges, change, position]
        exact bad status reason j h

/-- Changes are judged by the streams' shapes and states alone. -/
theorem applyChanges_congr {s t : State} (streams : s.streams = t.streams) :
    ∀ (entries : List Word) (n : Nat) (working : Bank), s.applyChanges entries n working = t.applyChanges entries n working := by
  have same (i : StreamId) : s.stream i = t.stream i := by simp [State.stream, streams]
  have change (working : Bank) (w : Word) : s.applyChange working w = t.applyChange working w := by
    simp only [State.applyChange, State.placeChange, State.placeChecked, State.collidesWith, State.streamsCollide,
      same]
  intro entries
  induction entries with
  | nil => exact fun _ _ => rfl
  | cons w rest ih =>
    intro n working
    rw [State.applyChanges, State.applyChanges, change]
    cases t.applyChange working w with
    | applied next => exact ih (n + 1) next
    | failed => rfl

theorem changeListReadEnds : Claims.ChangeListReadEnds := by
  intro s c q entries working a count next free ready held request length load hfree
  have changes := applyChanges_congr (s := s.answered .scheduleUnit) (t := s) rfl entries next working
  have load' : (s.answered .scheduleUnit).sched.load = .performing working a count next := load
  have row : exec (.changeListReadDone entries) s =
      .next ((s.answered .scheduleUnit).takeChanges c working a count next entries) := by
    simp only [exec, execChangeListReadDone, onHeldAnswer_of_held ready request held, load', length, Transfer.length, if_true]
  refine ⟨fun n status reason j failed => ?failed, fun done applied => ⟨fun last => ?last, fun more => ?more⟩, ?error⟩
  case failed =>
    rw [row, State.takeChanges, changes, failed, hfree]
    exact congrArg Host.Outcome.next (lookForCommand_eq_looked _)
  case last =>
    rw [row, State.takeChanges, changes, applied, hfree]
    exact congrArg Host.Outcome.next ((if_pos last).trans (lookForCommand_eq_looked _))
  case more =>
    rw [row, State.takeChanges, changes, applied]
    exact congrArg Host.Outcome.next (if_neg (Nat.not_le.mpr more))
  case error =>
    simp only [exec, execChangeListReadError, onHeldAnswer_of_held ready request held, load', hfree]
    exact congrArg Host.Outcome.next (lookForCommand_eq_looked _)

/-- Settles O40. -/
theorem changeListApplied : Obligations.ChangeListApplied := ⟨changesApplyInOrder, changeListReadEnds⟩

end Sys2Proof.Machine

/-!
The Schedule Unit judges changes and commits: PLACE and CLEAR with their checks in order (R64, R70, R71, R197), and COMMIT SCHEDULE by
the state of the link (R74 to R76).
-/
namespace Sys2Proof.Machine

/-! ## A change entry's placement (12.7, R197) -/

section
variable {s : State} {working : Bank} {w : Word} {p : Placement}

/-- A change entry whose fields are those of a placement names it. -/
theorem changePlacement_of_fields (lane : laneOf (field w 24 4) = some p.lane) (slot : field w 0 8 = p.slot.val)
    (stream : field w 8 8 = p.stream.val) (channel : field w 16 8 = p.channel.val) : changePlacement w = some p := by
  simp [changePlacement, lane, slot, stream, channel]

/-- A change entry with a field out of range names none. -/
theorem changePlacement_of_outside (outside : 1 < field w 24 4 ∨ 47 < field w 0 8 ∨ 31 < field w 8 8 ∨ 7 < field w 16 8) :
    changePlacement w = none := by
  unfold changePlacement laneOf
  split
  · rfl
  · next lane known =>
    have inside : ¬ 1 < field w 24 4 := fun above => by
      rw [if_neg (by omega), if_neg (by omega)] at known
      cases known
    split <;> try rfl
    split <;> try rfl
    split <;> try rfl
    omega

/-- An entry that names no placement fails check 1. -/
theorem applyChange_of_outside (outside : changePlacement w = none) :
    s.applyChange working w = .failed .badChange .field none := by
  rw [State.applyChange, outside]

/-- An entry of an unknown action fails check 1. -/
theorem applyChange_of_unknown (unknown : field w 28 4 ≠ 1 ∧ field w 28 4 ≠ 2) :
    s.applyChange working w = .failed .badChange .field none := by
  rw [State.applyChange]
  split
  · rfl
  · rw [changeAction, if_neg unknown.1, if_neg unknown.2]

/-- A CLEAR of a placement in range. -/
theorem applyChange_of_clear (names : changePlacement w = some p) (clear : field w 28 4 = 2) :
    s.applyChange working w = clearChange working p := by
  rw [State.applyChange, names]
  simp [changeAction, clear]

/-- A PLACE of a placement in range. -/
theorem applyChange_of_place (names : changePlacement w = some p) (place : field w 28 4 = 1) :
    s.applyChange working w = s.placeChange working p := by
  rw [State.applyChange, names]
  simp [changeAction, place]

/-! ## PLACE and CLEAR (R70, R71) -/

/-- A PLACE of a CLOSED stream fails check 2. -/
theorem placeChange_of_closed (closed : (s.stream p.stream).state = .closed) :
    s.placeChange working p = .failed .badChange .closed none := by
  rw [State.placeChange]
  split
  · rfl
  · exact if_pos closed

/-- A PLACE of a stream that is not CLOSED comes to the checks 3 to 7. -/
theorem placeChange_of_shape {sh : Shape} (opened : (s.stream p.stream).state ≠ .closed)
    (shape : (s.stream p.stream).shape = some sh) : s.placeChange working p = s.placeChecked working p sh := by
  rw [State.placeChange, shape]
  exact if_neg opened

theorem collidesWith_eq_some {j : StreamId} :
    s.collidesWith working p = some j ↔
      ((∃ q ∈ working, (q.lane = p.lane ∧ q.slot = p.slot) ∧ q.stream = j) ∧ s.streamsCollide p.stream j = true) ∧
        ∀ i, i < j → ¬ ((∃ q ∈ working, (q.lane = p.lane ∧ q.slot = p.slot) ∧ q.stream = i) ∧ s.streamsCollide p.stream i = true) := by
  rw [State.collidesWith, find_allStreams_eq_some]
  simp only [Bank.onSlot, Bool.and_eq_true, List.any_eq_true, List.mem_filter, decide_eq_true_eq, ← Bool.not_eq_true, and_assoc]

theorem collidesWith_eq_none :
    s.collidesWith working p = none ↔
      ∀ q ∈ working, q.lane = p.lane → q.slot = p.slot → s.streamsCollide p.stream q.stream = false := by
  rw [State.collidesWith, List.find?_eq_none]
  simp only [Bank.onSlot, Bool.and_eq_true, List.any_eq_true, List.mem_filter, decide_eq_true_eq, ← Bool.not_eq_true]
  constructor
  · exact fun absent q mem lane slot hit => absent q.stream (List.mem_finRange _) ⟨⟨q, ⟨mem, lane, slot⟩, rfl⟩, hit⟩
  · rintro absent j - ⟨⟨q, ⟨mem, lane, slot⟩, rfl⟩, hit⟩
    exact absent q mem lane slot hit

end

theorem placeChecks : Claims.PlaceChecks := by
  intro s working w lane slot i ch p named place laneField slotField streamField channelField
  have names : changePlacement w = some p := by
    subst named
    refine changePlacement_of_fields ?_ slotField streamField channelField
    rw [laneField]
    cases lane <;> rfl
  rw [applyChange_of_place names place]
  refine ⟨fun closed => placeChange_of_closed (by rw [named]; exact closed), fun sh opened shape => ?_⟩
  rw [placeChange_of_shape (by rw [named]; exact opened) (by rw [named]; exact shape), State.placeChecked, named]
  refine ⟨fun other => if_pos other, fun same beyond => ?_, fun same inside => ⟨fun twice => ?_, fun once => ?_⟩⟩
  · rw [if_neg (not_not.2 same)]
    exact if_pos beyond
  · rw [if_neg (not_not.2 same), if_neg (Nat.not_le.2 inside)]
    obtain ⟨q, mem, stream, channel⟩ := twice
    exact if_pos (List.any_eq_true.2 ⟨q, mem, by simp [stream, channel]⟩)
  · have absent : ¬ working.places i ch.val = true := by
      intro placed
      obtain ⟨q, mem, same⟩ := List.any_eq_true.1 placed
      simp only [decide_eq_true_eq, Fin.val_inj] at same
      exact once q mem same
    rw [if_neg (not_not.2 same), if_neg (Nat.not_le.2 inside), if_neg absent]
    refine ⟨fun full => if_pos full, fun room => ?_⟩
    rw [if_neg (Nat.not_le.2 (by exact room))]
    refine ⟨fun apart => ?_, fun q mem lane' slot' hit lowest => ?_⟩
    · rw [collidesWith_eq_none.2 apart]
      exact ⟨_, rfl, fun q => (mem_insert working).trans or_comm⟩
    · have first : s.collidesWith working { lane := lane, slot := slot, stream := i, channel := ch } = some q.stream := by
        refine collidesWith_eq_some.2 ⟨⟨⟨q, mem, ⟨lane', slot'⟩, rfl⟩, hit⟩, ?_⟩
        rintro j below ⟨⟨q', mem', ⟨onLane, onSlot⟩, rfl⟩, hit'⟩
        exact absurd (lowest q' mem' onLane onSlot hit') (not_le.2 below)
      rw [first]

theorem clearChecks : Claims.ClearChecks := by
  intro s working w
  refine ⟨fun bad => ?_, fun p clear laneField slot stream channel => ?_⟩
  · rcases bad with lane | slot | stream | channel | unknown
    · exact applyChange_of_outside (changePlacement_of_outside (.inl lane))
    · exact applyChange_of_outside (changePlacement_of_outside (.inr (.inl slot)))
    · exact applyChange_of_outside (changePlacement_of_outside (.inr (.inr (.inl stream))))
    · exact applyChange_of_outside (changePlacement_of_outside (.inr (.inr (.inr channel))))
    · exact applyChange_of_unknown unknown
  · have names : changePlacement w = some p := by
      refine changePlacement_of_fields ?_ slot stream channel
      rw [laneField]
      cases p.lane <;> rfl
    rw [applyChange_of_clear names clear, clearChange]
    refine ⟨fun absent => if_neg (by simpa using absent), fun mem => ⟨working.remove p, if_pos (by simpa using mem), fun q => mem_remove working⟩⟩

/-- Settles O41. -/
theorem scheduleChangesChecked : Obligations.ScheduleChangesChecked := ⟨placeChecks, clearChecks⟩

/-! ## COMMIT SCHEDULE (R65, R74 to R76, R79) -/

/-- The banks exchange, the generation advances and the retiring mark is set for entries of the old one (R79, R82). -/
theorem swap_sched (s : State) : s.swap.sched = s.scheduleSwapped := by
  simp [State.swap, State.scheduleSwapped, State.windowHolds]

section
variable {s : State} {r : CommandRecord}

theorem exec_commitSchedule_of_taking (taking : s.Taking) :
    exec (.commitSchedule r) s = .next (s.afterTaking.commitSchedule (s.taken 0x21 r)).looked := by
  rw [← lookForCommand_eq_looked]
  exact takeCommand_of_taking taking 0x21 r State.commitSchedule

theorem lowestLacking_eq_some {b : Bank} {i : StreamId} :
    s.lowestLacking b = some i ↔
      (b.names i = true ∧ s.lacksChannel b i = true) ∧ ∀ j, j < i → b.names j = true → s.lacksChannel b j = false := by
  rw [State.lowestLacking, find_allStreams_eq_some, Bool.and_eq_true]
  refine and_congr_right fun _ => forall₂_congr fun j _ => ?_
  cases b.names j <;> simp

end

theorem commitJudged : Claims.CommitJudged := by
  intro s r taking
  have idle := afterTaking_proc_state s
  rw [exec_commitSchedule_of_taking taking]
  refine ⟨fun armed => ?armed, fun i clear named lacks before => ?lacking, fun clear complete => ⟨fun going => ?going, fun stopped => ?stopped⟩⟩
  case armed =>
    have armed' : s.afterTaking.sched.swapArmed = true := armed
    rw [State.commitSchedule, if_pos armed', endPlain_of_idle _ _ _ idle]
  case lacking =>
    have clear' : ¬ s.afterTaking.sched.swapArmed = true := by simpa using clear
    have first : s.afterTaking.lowestLacking s.afterTaking.sched.pending = some i :=
      lowestLacking_eq_some.2 ⟨⟨named, lacks⟩, before⟩
    rw [State.commitSchedule, if_neg clear', first]
    exact congrArg (fun t : State => Host.Outcome.next t.looked) (endCommand_of_idle _ _ _ _ idle)
  all_goals
    have clear' : ¬ s.afterTaking.sched.swapArmed = true := by simpa using clear
    have whole : s.afterTaking.lowestLacking s.afterTaking.sched.pending = none := (lowestLacking_eq_none_iff _ _).2 complete
    rw [State.commitSchedule, if_neg clear', whole]
  case going =>
    have moving : ¬ s.afterTaking.link.isStopped = true := by
      rcases going with state | state | state <;> simp [Link.isStopped, state]
    exact congrArg (fun t : State => Host.Outcome.next t.looked) (if_neg moving)
  case stopped =>
    have stands : s.afterTaking.link.isStopped = true := by
      rcases stopped with state | state <;> simp [Link.isStopped, state]
    refine ⟨_, congrArg (fun t : State => Host.Outcome.next t.looked) (if_pos stands), ?_⟩
    have swapped : s.afterTaking.swap.proc.state = .idle := by rw [swap_proc]; exact idle
    rw [endCommand_of_idle _ _ _ _ swapped]
    refine ⟨swap_sched s.afterTaking, ?_, swap_host _, swap_port _, swap_proc _, swap_link _, swap_ret _, swap_lines _, swap_freePool _,
      fun i => ?_⟩
    · simp only [State.withDone, swap_comp, swap_sched]
      rfl
    · exact (stream_swap s.afterTaking i).trans (moveAtSwap_eq_moved _ _ _)

theorem bankLacksAChannel : Claims.BankLacksAChannel := by
  intro s b i
  refine ⟨names_iff b i, ?_⟩
  rw [State.lacksChannel]
  cases shape : (s.stream i).shape with
  | none => simp
  | some sh => simp [Bank.places]

/-- Settles O43. -/
theorem commitByLinkState : Obligations.CommitByLinkState := ⟨commitJudged, bankLacksAChannel⟩

end Sys2Proof.Machine

/-!
The sense lines (Chapter 8): the edge and its record (R138, R140, R141, R143), the watched edge (R144), and the report that comes too
late (R28, R145).
-/
namespace Sys2Proof.Machine

section
variable {s : State} {k : LineId} {e : Edge}

/-- The selects of R138. -/
theorem selects_iff (c : SenseLine) : c.select.selects e = true ↔ edgeSelected c e := by
  unfold edgeSelected
  cases c.select <;> cases e <;> simp [EdgeSelect.selects]

theorem not_selects {c : SenseLine} (other : ¬ edgeSelected c e) : c.select.selects e = false := by
  simpa [← selects_iff] using other

theorem edgeLevel_eq : edgeLevel e = decide (e = .rising) := by cases e <;> rfl

@[simp] theorem setSenseLine_same (s : State) (k : LineId) (c : SenseLine) : (s.setSenseLine k c).lines.sense[k] = c := by
  simp [State.setSenseLine]

theorem setSenseLine_twice (s : State) (k : LineId) (c d : SenseLine) : (s.setSenseLine k c).setSenseLine k d = s.setSenseLine k d := by
  simp [State.setSenseLine]

theorem freePlace_setSenseLine (s : State) (k : LineId) (c : SenseLine) : (s.setSenseLine k c).freePlace = s.freePlace := rfl

/-- In READY a selected edge changes the suppressed count of its line and presents its record (R140, R143). -/
theorem presentEdge_of_ready (ready : s.host.engine = .ready) (stamp : Option (FrameNo × Nat)) :
    s.presentEdge k e stamp =
      (s.setSenseLine k { s.lines.sense[k] with
        suppressed := if s.freePlace then 0 else min 65535 (s.lines.sense[k].suppressed + 1) }).afterEvent
        (.senseEdge k e stamp s.lines.sense[k].suppressed) := by
  rw [← countUp_eq_min]
  exact present_of_ready (s := s.setSenseLine k _) ready _

/-- A later edge of a frame is counted (R141). -/
theorem edgeInFrame_of_marked (marked : s.lines.sense[k].frameMark = true) (offset : Nat) :
    s.edgeInFrame k e offset =
      s.setSenseLine k { s.lines.sense[k] with suppressed := min 65535 (s.lines.sense[k].suppressed + 1) } := by
  rw [← countUp_eq_min]
  exact if_pos marked

/-- The first edge of a frame sets the mark and presents its record (R141). -/
theorem edgeInFrame_of_clear (ready : s.host.engine = .ready) (clear : s.lines.sense[k].frameMark = false) (offset : Nat) :
    s.edgeInFrame k e offset =
      (s.setSenseLine k { s.lines.sense[k] with
        frameMark := true
        suppressed := if s.freePlace then 0 else min 65535 (s.lines.sense[k].suppressed + 1) }).afterEvent
        (.senseEdge k e (some (s.link.frame, offset)) s.lines.sense[k].suppressed) := by
  rw [State.edgeInFrame, if_neg (ne_true_of_eq_false clear), presentEdge_of_ready (by exact ready), setSenseLine_same, setSenseLine_twice,
    freePlace_setSenseLine]

/-- An edge that no watch waits for changes the level, and is handled at once where it is selected. -/
theorem exec_senseLineEdge_of_unwatched (unwatched : ∀ w, s.lines.watch = some w → ¬ (w.line = k ∧ w.edge = e)) (micros : Nat) :
    exec (.senseLineEdge k e micros) s =
      .next
        (if s.lines.sense[k].select.selects e then
          (s.setSenseLine k { s.lines.sense[k] with level := decide (e = .rising) }).selectedEdge k e micros
        else s.setSenseLine k { s.lines.sense[k] with level := decide (e = .rising) }) := by
  have quiet : ¬ (s.setSenseLine k { s.lines.sense[k] with level := edgeLevel e }).isTriggerEdge k e = true := by
    have same : (s.setSenseLine k { s.lines.sense[k] with level := edgeLevel e }).lines.watch = s.lines.watch := rfl
    unfold State.isTriggerEdge
    rw [same]
    split
    · simp
    · next w watch => simpa using unwatched w watch
  simp only [exec, execSenseLineEdge]
  rw [if_neg quiet, setSenseLine_same, edgeLevel_eq]

end

/-- Settles O46: what comes of an edge is decided by the select, the engine, the link state and the frame mark, in this order. -/
theorem senseEdgesReported : Obligations.SenseEdgesReported := by
  intro s l e micros c unwatched named
  rw [exec_senseLineEdge_of_unwatched unwatched, ← named]
  have held : (s.setSenseLine l c).lines.sense[l] = c := setSenseLine_same s l c
  refine ⟨fun quiet => ?_, fun selected ready still => ?_, fun selected ready running marked => ?_, fun k selected ready running clear config => ?_⟩
  · congr 1
    split
    · next selected => exact if_neg (quiet.resolve_left (not_not.2 ((selects_iff _).1 selected)))
    · rfl
  all_goals
    rw [if_pos ((selects_iff _).2 selected)]
    congr 1
    rw [State.selectedEdge, if_pos (by exact ready)]
  · rw [if_neg (by exact still), presentEdge_of_ready (by exact ready), held, setSenseLine_twice]
    rfl
  · rw [if_pos (by exact running), edgeInFrame_of_marked (by rw [held]; exact marked), held, setSenseLine_twice]
    rfl
  · have period : (s.setSenseLine l c).link.framePeriod = k.period := by
      have same : (s.setSenseLine l c).link.config = some k := config
      rw [Link.framePeriod, same]
    rw [if_pos (by exact running), edgeInFrame_of_clear (by exact ready) (by rw [held]; exact clear), held, setSenseLine_twice, period]
    rfl

/-! ## The trigger (R28, R144, R145) -/

section
variable {s : State} {p : TriggerReport} {rest : List TriggerReport}

theorem exec_triggerEdgeReport_of_report (reports : s.lines.reports = p :: rest) :
    exec .triggerEdgeReport s = .next (({ s with lines.reports := rest } : State).takeReport p) := by
  simp only [exec, execTriggerEdgeReport, reports]

/-- The watched edge is reported, whatever the select of its line (R144). -/
theorem exec_senseLineEdge_of_watched {l : LineId} {e : Edge} (watched : s.lines.watch = some { line := l, edge := e }) (micros : Nat) :
    exec (.senseLineEdge l e micros) s =
      .next ((s.setSenseLine l { s.lines.sense[l] with level := decide (e = .rising) }).reportTrigger l e) := by
  have fires : (s.setSenseLine l { s.lines.sense[l] with level := edgeLevel e }).isTriggerEdge l e = true := by
    have same : (s.setSenseLine l { s.lines.sense[l] with level := edgeLevel e }).lines.watch = some { line := l, edge := e } := watched
    rw [State.isTriggerEdge, same]
    simp
  simp only [exec, execSenseLineEdge]
  rw [if_pos fires, edgeLevel_eq]

/-- A selected edge of a report that starts nothing makes its record with "no frame" (R145). -/
theorem takeReport_of_late (ready : s.host.engine = .ready) (late : s.link.state ≠ .waiting ∨ p.current = false)
    (selected : edgeSelected s.lines.sense[p.line] p.edge) :
    s.takeReport p =
      (s.setSenseLine p.line { s.lines.sense[p.line] with
        suppressed := if s.freePlace then 0 else min 65535 (s.lines.sense[p.line].suppressed + 1) }).afterEvent
        (.senseEdge p.line p.edge none s.lines.sense[p.line].suppressed) := by
  have starts : ¬ (s.link.state = .waiting ∧ p.current = true) := by
    rintro ⟨waiting, current⟩
    rcases late with other | older
    · exact other waiting
    · simp [older] at current
  rw [State.takeReport, if_pos ready, if_neg starts, State.triggerTooLate, if_pos ((selects_iff _).2 selected), presentEdge_of_ready ready]

/-- A report out of READY, and one that starts nothing of an edge not selected, do nothing (R145, R149). -/
theorem takeReport_of_idle
    (idle : s.host.engine ≠ .ready ∨
      ((s.link.state ≠ .waiting ∨ p.current = false) ∧ ¬ edgeSelected s.lines.sense[p.line] p.edge)) :
    s.takeReport p = s := by
  rcases idle with out | ⟨late, other⟩
  · exact if_neg out
  · have starts : ¬ (s.link.state = .waiting ∧ p.current = true) := by
      rintro ⟨waiting, current⟩
      rcases late with moved | older
      · exact moved waiting
      · simp [older] at current
    rw [State.takeReport, if_neg starts, State.triggerTooLate, not_selects other]
    simp

end

end Sys2Proof.Machine

/-!
What the work of the link does to the records (R32, R158, R167, R168): they are added behind those held, no place is freed, and an event
that is presented on the way is one of them or is counted as lost.
-/
namespace Sys2Proof.Machine

/-- From `s` to `t` records enter behind those held, no place is freed, and lost events are counted up to the bound. -/
structure Grows (s t : State) : Prop where
  records : ∃ new, t.comp.holding = s.comp.holding ++ new
  places : s.placesInUse ≤ t.placesInUse
  losses : t.comp.lossCount = s.comp.lossCount ∨ (s.comp.lossCount < t.comp.lossCount ∧ t.comp.lossCount ≤ 65535)
    ∨ t.comp.lossCount = 65535

section
variable {s t u v : State} {e : Event}

theorem Grows.of_comp (same : t.comp = s.comp) : Grows s t :=
  ⟨⟨[], by simp [same]⟩, by simp [State.placesInUse, same], .inl (by rw [same])⟩

theorem Grows.refl (s : State) : Grows s s := .of_comp rfl

theorem Grows.trans (h : Grows s t) (k : Grows t u) : Grows s u where
  records := by
    obtain ⟨first, held⟩ := h.records
    obtain ⟨second, held'⟩ := k.records
    exact ⟨first ++ second, by rw [held', held, List.append_assoc]⟩
  places := h.places.trans k.places
  losses := by
    have before := h.losses
    have after := k.losses
    omega

/-- What the records come from is judged by the Completion Unit alone. -/
theorem Grows.congr (h : Grows t u) (same : t.comp = s.comp) : Grows s u := (Grows.of_comp same).trans h

/-- Records that enter with no reservation, or each with its own. -/
theorem Grows.of_holding {new : List Record} (held : t.comp.holding = s.comp.holding ++ new)
    (reserved : s.comp.reservations ≤ t.comp.reservations + new.length) (losses : t.comp.lossCount = s.comp.lossCount) : Grows s t where
  records := ⟨new, held⟩
  places := by
    simp only [State.placesInUse, held, List.length_append]
    omega
  losses := .inl losses

theorem countUp_grows (n : Nat) : countUp n = n ∨ (n < countUp n ∧ countUp n ≤ 65535) ∨ countUp n = 65535 := by
  rw [countUp_eq_min]
  omega

theorem grows_present (s : State) (e : Event) : Grows s (s.present e) := by
  rcases present_comp s e with same | ⟨-, entered⟩ | lost
  · exact .of_comp same
  · exact .of_holding (new := [.event e]) (by rw [entered]) (by simp [entered]) (by rw [entered])
  · exact ⟨⟨[], by simp [lost]⟩, by simp [State.placesInUse, lost], by rw [lost]; exact countUp_grows _⟩

theorem grows_complete (s : State) (c : Command) (status : CommandStatus) (result : CommandResult) :
    Grows s (s.complete c status result) :=
  .of_holding (new := [.commandDone c status result]) rfl (by simp [State.complete]; omega) rfl

theorem grows_retireHeads (n : Nat) (i : StreamId) : ∀ s : State, Grows s (retireHeads n i s) := by
  induction n with
  | zero => exact fun s => .refl s
  | succ n ih =>
    intro s
    unfold retireHeads
    split
    · exact .refl s
    · split
      · exact .refl s
      · split
        · split
          · have entered (e : Entry) (a : BlockStatus) : Grows s (s.retireReporting i e a) :=
              .of_holding (new := [.blockDone (blockDoneOf i (s.stream i).ringSize e a)]) rfl (Nat.le_add_right _ _) rfl
            exact (entered _ _).trans (ih _)
          · exact .refl s
        · exact Grows.trans (t := s.retireSilently i) (.of_comp rfl) (ih _)

theorem grows_outStreamTurn (f : FrameNo) (s : State) (i : StreamId) : Grows s (outStreamTurn f s i) := by
  unfold outStreamTurn
  dsimp only
  split
  · exact .refl s
  · split
    · split
      · unfold State.goodTurn
        dsimp only
        refine Grows.trans ?_ (grows_retireHeads 2 i _)
        split
        · exact Grows.trans (grows_present s _) (.of_comp rfl)
        · exact .of_comp rfl
      · unfold State.underrunTurn
        dsimp only
        split
        · exact .of_comp rfl
        · exact Grows.trans (t := s.setStream i _) (.of_comp rfl) (grows_present _ _)
    · exact .refl s

theorem grows_inStreamTurn (b : Bank) (f : FrameNo) (r : Resolution) (words : List Word) (s : State) (i : StreamId) :
    Grows s (inStreamTurn b f r words s i) := by
  unfold inStreamTurn
  dsimp only
  split
  · exact .refl s
  · split
    · exact .refl s
    · split
      · unfold State.takeInTurn
        dsimp only
        split
        · split
          · exact Grows.trans (grows_present s _) (.of_comp rfl)
          · exact .of_comp rfl
        · split
          · exact .of_comp rfl
          · exact Grows.trans (t := s.setStream i _) (.of_comp rfl) (grows_present _ _)
      · exact .refl s

/-- All that the link does only adds records. -/
theorem grows_commandBlind (s : State) : CommandBlind (Grows s) where
  present t e h := h.trans (grows_present t e)
  complete t c status result h := h.trans (grows_complete t c status result)
  apart same h := h.trans (.of_comp same.comp)
  swap t _ h := h.trans (.of_comp (swap_comp t))
  outTurn f t i h := h.trans (grows_outStreamTurn f t i)
  inTurn b f r words t i h := h.trans (grows_inStreamTurn b f r words t i)

theorem grows_foldl {g : State → StreamId → State} (turn : ∀ s i, Grows s (g s i)) (l : List StreamId) :
    ∀ s : State, Grows s (l.foldl g s) := by
  induction l with
  | nil => exact fun s => .refl s
  | cons i rest ih => exact fun s => (turn s i).trans (ih _)

theorem grows_stopWhenDone (s : State) : Grows s s.stopWhenDone := (grows_commandBlind s).linkStable.stopWhenDone (.refl s)

theorem grows_looked (s : State) : Grows s s.looked := by
  unfold State.looked
  split
  · exact .refl s
  · split
    · split
      · exact .of_holding (new := []) (by simp [State.commandServed]) (by simp [State.commandServed]) rfl
      · exact .of_comp rfl
    · exact .refl s

/-! ## Events presented on the way -/

theorem Presented.within (before : Grows s t) (step : Grows t u) (told : Presented t u e) (after : Grows u v) : Presented s v e := by
  obtain ⟨first, held⟩ := before.records
  obtain ⟨second, held', here, free⟩ := told
  obtain ⟨third, held''⟩ := after.records
  refine ⟨first ++ second ++ third, by rw [held'', held', held]; simp, ?_, fun place => ?_⟩
  · rcases here with mem | lost
    · exact .inl (by simp [mem])
    · have fewer := before.losses
      have counted := step.losses
      have more := after.losses
      refine .inr ?_
      omega
  · have entered := free (after.places.trans_lt place)
    simp [entered]

theorem presented_afterEvent (s : State) (e : Event) : Presented s (s.afterEvent e) e := by
  unfold State.afterEvent
  split
  · next free => exact ⟨[.event e], rfl, .inl (by simp), fun _ => by simp⟩
  · next full =>
    refine ⟨[], by simp, .inr ?_, fun place => absurd place ?_⟩
    · dsimp only
      omega
    · exact (by simpa [State.freePlace] using full : ¬ s.placesInUse < 32)

theorem presented_present (ready : s.host.engine = .ready) (e : Event) : Presented s (s.present e) e := by
  rw [present_of_ready ready]
  exact presented_afterEvent s e

/-! ## The Completion Unit but for its records -/

theorem recordsGrow_of (grows : Grows s t) (only : OnlyRecords s t) : RecordsGrow s.comp t.comp :=
  ⟨grows.records, by rw [only.1]⟩

theorem recordsGrow_trans {a b c : Completion} (h : RecordsGrow a b) (k : RecordsGrow b c) : RecordsGrow a c := by
  obtain ⟨⟨first, held⟩, same⟩ := h
  obtain ⟨⟨second, held'⟩, same'⟩ := k
  exact ⟨⟨first ++ second, by rw [held', held, List.append_assoc]⟩, same'.trans same⟩

end

end Sys2Proof.Machine

/-!
What the resolution of a window entry does (R13 to R15, R33, R120): the in-streams' turns, the bad-return run with its event and the fault
stop, and the retiring mark, before the passage to STOPPED that may follow.
-/
namespace Sys2Proof.Machine

/-! ## Turns in the order of the streams -/

section
variable {g : State → StreamId → State}

theorem allStreams_split (i : StreamId) : ∃ before after, allStreams = before ++ i :: after ∧ i ∉ before ∧ i ∉ after := by
  obtain ⟨before, after, split⟩ := List.append_of_mem (List.mem_finRange i)
  have once : (before ++ i :: after).Nodup := split ▸ List.nodup_finRange 32
  rw [List.nodup_append] at once
  obtain ⟨-, rest, apart⟩ := once
  exact ⟨before, after, split, fun mem => apart i mem i (by simp) rfl, (List.nodup_cons.1 rest).1⟩

/-- Turns of other streams leave a stream as it is. -/
theorem stream_foldl_of_notMem (others : ∀ (s : State) {i j : StreamId}, j ≠ i → (g s i).stream j = s.stream j) {j : StreamId} :
    ∀ {l : List StreamId} (s : State), j ∉ l → (l.foldl g s).stream j = s.stream j := by
  intro l
  induction l with
  | nil => exact fun _ _ => rfl
  | cons i rest ih =>
    intro s absent
    obtain ⟨here, later⟩ := not_or.1 (fun mem => absent (List.mem_cons.2 mem))
    rw [List.foldl_cons, ih _ later, others s here]

/-- Of the turns of all streams the stream's own alone changes it: the turns before it find it as it was, and those after it leave it. -/
theorem foldl_at_stream (others : ∀ (s : State) {i j : StreamId}, j ≠ i → (g s i).stream j = s.stream j) (s : State) (i : StreamId) :
    ∃ before after : List StreamId,
      allStreams.foldl g s = after.foldl g (g (before.foldl g s) i)
      ∧ (before.foldl g s).stream i = s.stream i
      ∧ (allStreams.foldl g s).stream i = (g (before.foldl g s) i).stream i := by
  obtain ⟨before, after, split, first, last⟩ := allStreams_split i
  have order : allStreams.foldl g s = after.foldl g (g (before.foldl g s) i) := by rw [split, List.foldl_append, List.foldl_cons]
  exact ⟨before, after, order, stream_foldl_of_notMem others s first, by rw [order, stream_foldl_of_notMem others _ last]⟩

end

/-! ## The bad-return run (R14, R15, R33) -/

section
variable {s : State} {k : LinkConfig}

/-- The state with a bad return counted, the fault stop begun where the run reaches the threshold. -/
def State.badCounted (s : State) : State :=
  { s with
    link.badRun := min 65535 (s.link.badRun + 1)
    link.state := if s.reachesThreshold then .stopping else s.link.state
    link.stopCause := if s.reachesThreshold then some .returnFault else s.link.stopCause
    link.frameTimer := if s.reachesThreshold then false else s.link.frameTimer }

theorem reachesThreshold_eq (config : s.link.config = some k) : s.reachesThreshold = beginsFaultStop s k.threshold := by
  simp [State.reachesThreshold, beginsFaultStop, Link.faultThreshold, config, Bool.and_assoc]

/-- An event finds the same places whatever the link does. -/
theorem afterEvent_link (s : State) (l : Link) (e : Event) :
    ({ s.afterEvent e with link := l } : State) = ({ s with link := l } : State).afterEvent e := by
  unfold State.afterEvent
  have free : ({ s with link := l } : State).freePlace = s.freePlace := rfl
  rw [free]
  split <;> rfl

@[simp] theorem afterEvent_link_eq (s : State) (e : Event) : (s.afterEvent e).link = s.link := by
  unfold State.afterEvent
  split <;> rfl

theorem faultStop_afterEvent (s : State) (e : Event) : (s.afterEvent e).faultStop = s.faultStop.afterEvent e := by
  unfold State.faultStop
  simp only [afterEvent_link_eq]
  exact afterEvent_link s _ e

theorem badReturn_eq (ready : s.host.engine = .ready) (f : FrameNo) :
    s.badReturn f =
      if s.link.badRun = 0 then s.badCounted.afterEvent (.linkDegraded f s.ret.lastStation) else s.badCounted := by
  have told : (if s.link.badRun = 0 then
        ({ s with link.badRun := countUp s.link.badRun } : State).present (.linkDegraded f s.ret.lastStation)
      else { s with link.badRun := countUp s.link.badRun }) =
      if s.link.badRun = 0 then
        ({ s with link.badRun := min 65535 (s.link.badRun + 1) } : State).afterEvent (.linkDegraded f s.ret.lastStation)
      else { s with link.badRun := min 65535 (s.link.badRun + 1) } := by
    rw [present_of_ready (by exact ready), countUp_eq_min]
  rw [State.badReturn, told, State.badCounted]
  by_cases zero : s.link.badRun = 0
  · rw [if_pos zero, if_pos zero]
    cases s.reachesThreshold with
    | false => rfl
    | true => exact faultStop_afterEvent _ _
  · rw [if_neg zero, if_neg zero]
    cases s.reachesThreshold <;> rfl

theorem goodReturn_eq (ready : s.host.engine = .ready) (f : FrameNo) :
    s.goodReturn f =
      if s.link.badRun = 0 then s
      else ({ s with link.badRun := 0 } : State).afterEvent (.linkRestored f s.link.badRun) := by
  rw [State.goodReturn]
  split
  · rfl
  · rw [present_of_ready ready]
    simp only [afterEvent_link_eq]
    exact afterEvent_link s _ _

/-- What a resolution does to the run and the link's health (R14). -/
def State.healed (s : State) (f : FrameNo) : Resolution → State
  | .good => s.goodReturn f
  | .damaged => s.badReturn f
  | .missing => s.badReturn f

theorem healed_frame (s : State) (f : FrameNo) (r : Resolution) :
    s.healed f r = { s with link := (s.healed f r).link, comp := (s.healed f r).comp } := by
  cases r with
  | good => exact goodReturn_frame s f
  | damaged => exact badReturn_frame s f
  | missing => exact badReturn_frame s f

theorem healed_link_good (ready : s.host.engine = .ready) (f : FrameNo) :
    (s.healed f .good).link = { s.link with badRun := 0 } := by
  rw [State.healed, goodReturn_eq ready]
  split
  · next zero => rw [← zero]
  · simp

theorem healed_link_bad (ready : s.host.engine = .ready) (f : FrameNo) {r : Resolution} (bad : r ≠ .good) :
    (s.healed f r).link = s.badCounted.link := by
  have counted : (s.badReturn f).link = s.badCounted.link := by
    rw [badReturn_eq ready]
    split
    · simp
    · rfl
  cases r with
  | good => exact absurd rfl bad
  | damaged => exact counted
  | missing => exact counted

theorem grows_healed (s : State) (f : FrameNo) (r : Resolution) : Grows s (s.healed f r) := by
  have stable := (grows_commandBlind s).linkStable
  cases r with
  | good => exact stable.goodReturn f (.refl s)
  | damaged => exact stable.badReturn f (.refl s)
  | missing => exact stable.badReturn f (.refl s)

theorem onlyRecords_afterEvent (s : State) (e : Event) : OnlyRecords s (s.afterEvent e) := by
  unfold State.afterEvent
  split
  · next free => exact onlyRecords_enter s (.event e) (placesInUse_of_freePlace free)
  · exact ⟨rfl, id⟩

theorem onlyRecords_healed (ready : s.host.engine = .ready) (f : FrameNo) (r : Resolution) : OnlyRecords s (s.healed f r) := by
  have bad : OnlyRecords s (s.badReturn f) := by
    rw [badReturn_eq ready]
    split
    · exact OnlyRecords.trans (t := s.badCounted) (.of_comp rfl) (onlyRecords_afterEvent _ _)
    · exact .of_comp rfl
  cases r with
  | good =>
    rw [State.healed, goodReturn_eq ready]
    split
    · exact .refl s
    · exact OnlyRecords.trans (t := { s with link := { s.link with badRun := 0 } }) (.of_comp rfl) (onlyRecords_afterEvent _ _)
  | damaged => exact bad
  | missing => exact bad

/-- A bad return from a run of 0 presents LINK_DEGRADED (R14). -/
theorem presented_degraded (ready : s.host.engine = .ready) (zero : s.link.badRun = 0) (f : FrameNo) {r : Resolution} (bad : r ≠ .good) :
    Presented s (s.healed f r) (.linkDegraded f s.ret.lastStation) := by
  have counted : Presented s (s.badReturn f) (.linkDegraded f s.ret.lastStation) := by
    rw [badReturn_eq ready, if_pos zero]
    exact presented_afterEvent s.badCounted _
  cases r with
  | good => exact absurd rfl bad
  | damaged => exact counted
  | missing => exact counted

/-- A good return that ends a run presents LINK_RESTORED with the run's count (R14). -/
theorem presented_restored (ready : s.host.engine = .ready) (above : 0 < s.link.badRun) (f : FrameNo) :
    Presented s (s.healed f .good) (.linkRestored f s.link.badRun) := by
  rw [State.healed, goodReturn_eq ready, if_neg (by omega)]
  exact presented_afterEvent { s with link := { s.link with badRun := 0 } } _

end

/-! ## The turns of a resolution (R120) -/

section
variable {s : State} {b : Bank} {f : FrameNo} {r : Resolution} {words : List Word} {i : StreamId} {sh : Shape}

theorem inStreamTurn_of_out (out : ∀ sh : Shape, (s.stream i).shape = some sh → sh.kind.lane = .outLane) :
    inStreamTurn b f r words s i = s := by
  unfold inStreamTurn
  dsimp only
  split
  · rfl
  · next sh shape =>
    have lane := out sh shape
    split
    · rfl
    · next mode kind => simp [kind, StreamKind.lane] at lane

theorem inStreamTurn_of_in {mode : TagMode} (shape : (s.stream i).shape = some sh) (kind : sh.kind = .inStream mode) :
    inStreamTurn b f r words s i =
      if b.names i && sh.dueIn f && (s.stream i).mayIssue then s.takeInTurn i sh f (buildTurn b i sh mode f r words s.freeSeq)
      else s := by
  simp only [inStreamTurn, shape, kind]

/-- The state after the turns that a resolution of the entry gives. -/
@[irreducible] def State.turned (s : State) (e : WindowEntry) (r : Resolution) (words : List Word) : State :=
  allStreams.foldl (inStreamTurn (s.bankOf e.generation) e.frame r words) s

theorem turned_eq (s : State) (e : WindowEntry) (r : Resolution) (words : List Word) :
    s.turned e r words = allStreams.foldl (inStreamTurn (s.bankOf e.generation) e.frame r words) s := by
  delta State.turned
  exact Eq.refl _

theorem turned_frame (s : State) (e : WindowEntry) (r : Resolution) (words : List Word) :
    s.turned e r words = { s with comp := (s.turned e r words).comp, streams := (s.turned e r words).streams } := by
  rw [turned_eq]
  exact inTurns_frame s _ _ _ _ _

theorem grows_turned (s : State) (e : WindowEntry) (r : Resolution) (words : List Word) : Grows s (s.turned e r words) := by
  rw [turned_eq]
  exact grows_foldl (grows_inStreamTurn _ _ _ _) _ s

theorem onlyRecords_turned (s : State) (e : WindowEntry) (r : Resolution) (words : List Word) : OnlyRecords s (s.turned e r words) := by
  rw [turned_eq]
  exact onlyRecords_inTurns s _ _ _ _ _

/-- The turns of a resolution move an in-stream's elements and run alone, and no out-stream. -/
theorem turned_stream (s : State) (e : WindowEntry) (r : Resolution) (words : List Word) (i : StreamId) :
    { (s.turned e r words).stream i with elements := [], runFlag := false, runCount := 0 } =
      { s.stream i with elements := [], runFlag := false, runCount := 0 }
    ∧ ((∀ sh : Shape, (s.stream i).shape = some sh → sh.kind.lane = .outLane) → (s.turned e r words).stream i = s.stream i) := by
  obtain ⟨before, after, -, found, left⟩ :=
    foldl_at_stream (g := inStreamTurn (s.bankOf e.generation) e.frame r words) (stream_inStreamTurn_of_ne _ _ _ _) s i
  rw [turned_eq, left]
  generalize before.foldl _ s = u at found
  refine ⟨?_, fun out => ?_⟩
  · rw [stream_inStreamTurn, found]
  · rw [inStreamTurn_of_out (by rw [found]; exact out), found]

/-! ## The resolution before the passage to STOPPED -/

/-- The state that a resolution leaves before the link passes to STOPPED, if it may (R13). -/
def State.resolved (s : State) (e : WindowEntry) (r : Resolution) (words : List Word) : State :=
  { (s.turned e r words).healed e.frame r with
    sched.retiring :=
      ((s.turned e r words).healed e.frame r).sched.retiring
        && ((s.turned e r words).healed e.frame r).windowHolds (((s.turned e r words).healed e.frame r).sched.generation - 1) }

theorem resolve_eq (s : State) (e : WindowEntry) (r : Resolution) (words : List Word) :
    s.resolve e r words = (s.resolved e r words).stopWhenDone := by
  unfold State.resolve State.resolved State.windowNotice
  rw [turned_eq]
  dsimp only
  generalize allStreams.foldl _ s = u
  cases r <;> rfl

/-- All that a resolution changes but the link and the records. -/
theorem resolved_frame (s : State) (e : WindowEntry) (r : Resolution) (words : List Word) :
    s.resolved e r words =
      { s with
        link := (s.resolved e r words).link
        comp := (s.resolved e r words).comp
        streams := (s.turned e r words).streams
        sched := { s.sched with retiring := s.sched.retiring && s.windowHolds (s.sched.generation - 1) } } := by
  obtain ⟨l, c, health⟩ : ∃ l c, (s.turned e r words).healed e.frame r = { s.turned e r words with link := l, comp := c } :=
    ⟨_, _, healed_frame _ _ _⟩
  obtain ⟨c', x, turns⟩ : ∃ c' x, s.turned e r words = { s with comp := c', streams := x } := ⟨_, _, turned_frame _ _ _ _⟩
  unfold State.resolved
  rw [health, turns]
  rfl

theorem resolved_link_eq (s : State) (e : WindowEntry) (r : Resolution) (words : List Word) :
    (s.resolved e r words).link = ((s.turned e r words).healed e.frame r).link := by
  rw [State.resolved]

theorem grows_resolved (s : State) (e : WindowEntry) (r : Resolution) (words : List Word) : Grows s (s.resolved e r words) :=
  ((grows_turned s e r words).trans (grows_healed _ e.frame r)).trans (.of_comp (by rw [State.resolved]))

theorem resolved_stream (s : State) (e : WindowEntry) (r : Resolution) (words : List Word) (i : StreamId) :
    (s.resolved e r words).stream i = (s.turned e r words).stream i :=
  stream_congr (by rw [resolved_frame]) i

theorem turned_host (s : State) (e : WindowEntry) (r : Resolution) (words : List Word) : (s.turned e r words).host = s.host := by
  rw [turned_frame]

theorem turned_link (s : State) (e : WindowEntry) (r : Resolution) (words : List Word) : (s.turned e r words).link = s.link := by
  rw [turned_frame]

theorem turned_ret (s : State) (e : WindowEntry) (r : Resolution) (words : List Word) : (s.turned e r words).ret = s.ret := by
  rw [turned_frame]

theorem recordsGrow_resolved (ready : s.host.engine = .ready) (e : WindowEntry) (r : Resolution) (words : List Word) :
    RecordsGrow s.comp (s.resolved e r words).comp := by
  refine recordsGrow_of (grows_resolved s e r words) ((onlyRecords_turned s e r words).trans ?_)
  exact (onlyRecords_healed (by rw [turned_host]; exact ready) e.frame r).trans (.of_comp (by rw [State.resolved]))

/-- The link that a resolution leaves, in the words of the statements (R14, R33). -/
theorem resolved_link (ready : s.host.engine = .ready) {k : LinkConfig} (config : s.link.config = some k) (e : WindowEntry)
    (r : Resolution) (words : List Word) {stops : Bool}
    (stop : stops = if r = .good then false else beginsFaultStop s k.threshold) :
    (s.resolved e r words).link =
      { s.link with
        badRun := if r = .good then 0 else min 65535 (s.link.badRun + 1)
        state := if stops then .stopping else s.link.state
        stopCause := if stops then some .returnFault else s.link.stopCause
        frameTimer := if stops then false else s.link.frameTimer } := by
  have ready' : (s.turned e r words).host.engine = .ready := by rw [turned_host]; exact ready
  have link := turned_link s e r words
  rw [resolved_link_eq]
  by_cases good : r = .good
  · subst good
    rw [healed_link_good ready', link, stop]
    simp
  · have reaches : (s.turned e r words).reachesThreshold = stops := by
      rw [reachesThreshold_eq (by rw [link]; exact config), stop, if_neg good, beginsFaultStop, beginsFaultStop, link]
    rw [healed_link_bad ready' _ good, State.badCounted, reaches, link, if_neg good]

/-- The resolution of the entry that has left the window, in the words of the statements. -/
theorem windowResolved_resolved (ready : s.host.engine = .ready) {k : LinkConfig} (config : s.link.config = some k) (e : WindowEntry)
    (r : Resolution) (words : List Word) {stops : Bool} (stop : stops = if r = .good then false else beginsFaultStop s k.threshold)
    {n : Nat} (run : n = if r = .good then 0 else min 65535 (s.link.badRun + 1)) :
    WindowResolved s (s.resolved e r words) stops s.ret.window n := by
  have frame := resolved_frame s e r words
  refine ⟨by rw [frame], ?_, by rw [frame]; rfl, by rw [frame], by rw [frame], by rw [frame], by rw [frame], by rw [frame],
    recordsGrow_resolved ready e r words, fun i => ?_⟩
  · rw [resolved_link ready config e r words stop, run]
  · rw [resolved_stream]
    exact turned_stream s e r words i

end

/-! ## Resolutions one after another -/

section
variable {s t u v : State} {first second stops : Bool} {rest left : List WindowEntry} {n m : Nat}

/-- What resolves is judged by no part of the Return Unit. -/
theorem windowResolved_congr (h : WindowResolved t u stops rest n) (same : t = { s with ret := t.ret }) : WindowResolved s u stops rest n := by
  rw [same] at h
  exact h

theorem windowResolved_trans (h : WindowResolved s u first rest n) (k : WindowResolved u v second left m)
    (kept : ∀ e ∈ left, e ∈ rest) (stop : stops = (first || second)) : WindowResolved s v stops left m := by
  obtain ⟨-, link, sched, host, port, proc, pool, lines, records, streams⟩ := h
  obtain ⟨window, link', sched', host', port', proc', pool', lines', records', streams'⟩ := k
  subst stop
  refine ⟨window, ?_, ?_, host'.trans host, port'.trans port, proc'.trans proc, pool'.trans pool, lines'.trans lines,
    recordsGrow_trans records records',
    fun i => ?_⟩
  · rw [link', link]
    cases first <;> cases second <;> rfl
  · rw [sched', sched]
    have fewer : ((rest.any fun e => decide (e.generation = s.sched.generation - 1))
          && (left.any fun e => decide (e.generation = s.sched.generation - 1)))
        = left.any fun e => decide (e.generation = s.sched.generation - 1) := by
      rw [Bool.and_eq_right_iff_imp]
      simp only [List.any_eq_true]
      rintro ⟨e, mem, old⟩
      exact ⟨e, kept e mem, old⟩
    simp only [Bool.and_assoc, fewer]
  · obtain ⟨moved, out⟩ := streams i
    obtain ⟨moved', out'⟩ := streams' i
    refine ⟨moved'.trans moved, fun isOut => ?_⟩
    have same := out isOut
    exact (out' (by rw [same]; exact isOut)).trans same

end

/-! ## The passage to STOPPED that may follow -/

section
variable {s u : State} {stops : Bool} {rest : List WindowEntry} {n : Nat}

theorem stopWhenDone_badRun (s : State) : s.stopWhenDone.link.badRun = s.link.badRun := by
  rcases stopWhenDone_cases s with ⟨-, -, -, stopped⟩ | ⟨-, stands⟩
  · rw [stopped, enterStopped_link]
  · rw [stands]

/-- The link that the resolutions leave passes to STOPPED where it may (R32). -/
theorem linkResolved_stopWhenDone (ready : s.host.engine = .ready) (h : WindowResolved s u stops rest n) :
    LinkResolved s u.stopWhenDone stops rest := by
  obtain ⟨window, link, -, host, -⟩ := id h
  have sent : u.link.transmitting = s.link.transmitting := by rw [link]
  have run : u.link.badRun = n := by rw [link]
  refine ⟨u, by rw [stopWhenDone_badRun, run]; exact h, fun stopping empty ended => ?_, fun goesOn => ?_⟩
  · rw [stopWhenDone_of_done stopping (window.trans empty) (sent.trans ended)]
    exact stoppedEntered_enterStopped (by rw [host]; exact ready) _
  · refine stopWhenDone_of_not_done ?_
    rwa [window, sent]

/-- While an entry is left in the window the link does not pass to STOPPED (R32). -/
theorem resolve_eq_resolved (left : s.ret.window ≠ []) (e : WindowEntry) (r : Resolution) (words : List Word) :
    s.resolve e r words = s.resolved e r words := by
  rw [resolve_eq]
  refine stopWhenDone_of_not_done ?_
  rintro ⟨-, empty, -⟩
  rw [resolved_frame] at empty
  exact left empty

theorem resolveOldestMissing_eq {e : WindowEntry} (window : s.ret.window = e :: rest) :
    s.resolveOldestMissing = ({ s with ret.window := rest } : State).resolve e .missing [] := by
  rw [State.resolveOldestMissing, window]

/-- The oldest entry of a window answered by its own frame's return. -/
theorem resolveThrough_of_oldest {e : WindowEntry} (window : s.ret.window = e :: rest) (r : Resolution) (words : List Word) :
    resolveThrough s.ret.window.length e.frame r words s = ({ s with ret.window := rest } : State).resolve e r words := by
  rw [window, List.length_cons, resolveThrough, window]
  exact if_pos rfl

/-- The newer of two entries answered: the older resolves MISSING first (R10, R11). -/
theorem resolveThrough_of_newer {e e' : WindowEntry} (window : s.ret.window = [e', e]) (other : e'.frame ≠ e.frame) (r : Resolution)
    (words : List Word) :
    resolveThrough s.ret.window.length e.frame r words s =
      ({ ({ s with ret.window := [e] } : State).resolved e' .missing [] with ret.window := [] } : State).resolve e r words := by
  have older : s.resolveOldestMissing = ({ s with ret.window := [e] } : State).resolved e' .missing [] := by
    rw [resolveOldestMissing_eq window, resolve_eq_resolved (by simp)]
  have left : (({ s with ret.window := [e] } : State).resolved e' .missing []).ret.window = [e] := by rw [resolved_frame]
  rw [window, List.length_cons, List.length_singleton, resolveThrough, window]
  refine (if_neg other).trans ?_
  rw [older, resolveThrough, left]
  exact if_pos rfl

end

end Sys2Proof.Machine

/-!
Returns (R5 to R17): the check of an arrival, the entries it resolves in the order of their frames, the arrival that answers none, and the
looped return of INTERNAL mode.
-/
namespace Sys2Proof.Machine

/-! ## Events of a resolution -/

section
variable {s : State} {e : WindowEntry} {words : List Word}

theorem presented_resolved_degraded (ready : s.host.engine = .ready) (zero : s.link.badRun = 0) {r : Resolution} (bad : r ≠ .good) :
    Presented s (s.resolved e r words) (.linkDegraded e.frame s.ret.lastStation) := by
  have told := presented_degraded (s := s.turned e r words) (by rw [turned_host]; exact ready) (by rw [turned_link]; exact zero) e.frame bad
  rw [turned_ret] at told
  exact told.within (grows_turned s e r words) (grows_healed _ _ _) (.of_comp (by rw [State.resolved]))

theorem presented_resolved_restored (ready : s.host.engine = .ready) (above : 0 < s.link.badRun) :
    Presented s (s.resolved e .good words) (.linkRestored e.frame s.link.badRun) := by
  have told := presented_restored (s := s.turned e .good words) (by rw [turned_host]; exact ready) (by rw [turned_link]; exact above) e.frame
  rw [turned_link] at told
  exact told.within (grows_turned s e .good words) (grows_healed _ _ _) (.of_comp (by rw [State.resolved]))

theorem resolved_ret (s : State) (e : WindowEntry) (r : Resolution) (words : List Word) : (s.resolved e r words).ret = s.ret := by
  rw [resolved_frame]

theorem resolved_host (s : State) (e : WindowEntry) (r : Resolution) (words : List Word) : (s.resolved e r words).host = s.host := by
  rw [resolved_frame]

theorem stopWhenDone_ret (s : State) : s.stopWhenDone.ret = s.ret := (stopWhenDone_window s).1

end

/-! ## The check (R6) -/

theorem goodCheck_iff (words : List Word) (ragged : Bool) : goodCheck words ragged = true ↔ PassesCheck words ragged := by
  simp [goodCheck, PassesCheck, and_assoc]

/-- What the engine does with an arrival that DROP_RETURN does not discard (R6). -/
def State.takeReturn (s : State) (words : List Word) (ragged : Bool) : State :=
  if goodCheck words ragged then s.takeGoodReturn words else s.takeDamagedReturn words

section
variable {s : State} {words : List Word} {ragged : Bool}

theorem exec_returnArrival_of_takes (takes : TakesReturn s) (words : List Word) (ragged : Bool) :
    exec (.returnArrival words ragged) s = .next (s.takeReturn words ragged) := by
  obtain ⟨ready, state, armed, k, config, mode⟩ := takes
  have external : s.link.isInternal = false := by simp [isInternal_of_config config, mode]
  refine congrArg Host.Outcome.next ((if_pos ⟨(takesArrivals_iff s).2 ⟨ready, state⟩, external⟩).trans ?_)
  exact if_neg (by simp [armed])

theorem exec_loopedReturn_of_makes (makes : MakesLoopedReturn s words) :
    exec .loopedReturn s = .next (({ s with link.loopDue := false } : State).takeReturn words false) := by
  obtain ⟨ready, state, armed, due, sent, frame, k, config, mode⟩ := makes
  have internal : s.link.isInternal = true := by simp [isInternal_of_config config, mode]
  refine congrArg Host.Outcome.next ((if_pos ⟨(takesArrivals_iff s).2 ⟨ready, state⟩, internal, due, sent⟩).trans ?_)
  rw [State.loopReturn, frame]
  exact if_neg (by simp [armed])

theorem awaits_iff (s : State) (n : FrameNo) : s.awaits n = true ↔ ∃ e ∈ s.ret.window, e.frame = n := by
  simp [State.awaits]

theorem getD_of_getElem? {α : Type} {l : List α} {n : Nat} {x : α} (h : l[n]? = some x) (d : α) : l.getD n d = x := by
  rw [List.getD_eq_getElem?_getD, h]
  rfl

/-- A good return that answers an entry (R11). -/
theorem takeReturn_of_good {n : FrameNo} {station : Word} (passes : PassesCheck words ragged) (number : words[0]? = some n)
    (stn : words[1]? = some station) (answers : s.awaits n = true) :
    s.takeReturn words ragged =
      resolveThrough s.ret.window.length n .good words { s with ret.lastStation := station } := by
  rw [State.takeReturn, if_pos ((goodCheck_iff _ _).2 passes), State.takeGoodReturn, getD_of_getElem? number, getD_of_getElem? stn]
  exact if_pos answers

/-- A damaged return that answers an entry (R10). -/
theorem takeReturn_of_damaged {n : FrameNo} (fails : ¬ PassesCheck words ragged) (number : words.head? = some n)
    (answers : s.awaits n = true) :
    s.takeReturn words ragged =
      { resolveThrough s.ret.window.length n .damaged words s with freeSeq := s.freeSeq + 1 } := by
  obtain ⟨rest, list⟩ := List.head?_eq_some_iff.1 number
  rw [State.takeReturn, if_neg (mt (goodCheck_iff _ _).1 fails), list]
  exact if_pos answers

/-! ## Entries resolved by a good return (R11, R13) -/

variable {e e' : WindowEntry} {rest : List WindowEntry} {k : LinkConfig} {station : Word}

/-- The oldest entry answered by a good return. -/
theorem goodReturn_of_oldest (ready : s.host.engine = .ready) (config : s.link.config = some k) (window : s.ret.window = e :: rest) :
    LinkResolved s (resolveThrough s.ret.window.length e.frame .good words { s with ret.lastStation := station }) false rest
    ∧ (resolveThrough s.ret.window.length e.frame .good words { s with ret.lastStation := station }).ret.lastStation = station
    ∧ (resolveThrough s.ret.window.length e.frame .good words { s with ret.lastStation := station }).link.badRun = 0
    ∧ (0 < s.link.badRun →
        Presented s (resolveThrough s.ret.window.length e.frame .good words { s with ret.lastStation := station })
          (.linkRestored e.frame s.link.badRun)) := by
  let kept : State := { s with ret := { s.ret with window := rest, lastStation := station } }
  have through : resolveThrough s.ret.window.length e.frame .good words { s with ret.lastStation := station }
      = (kept.resolved e .good words).stopWhenDone :=
    (resolveThrough_of_oldest (s := { s with ret.lastStation := station }) window .good words).trans (resolve_eq _ _ _ _)
  have resolved : WindowResolved s (kept.resolved e .good words) false rest 0 :=
    windowResolved_congr (windowResolved_resolved (s := kept) ready config e .good words (n := 0) rfl rfl) rfl
  have link : (kept.resolved e .good words).link.badRun = 0 := by
    obtain ⟨-, link, -⟩ := resolved
    rw [link]
  rw [through]
  refine ⟨linkResolved_stopWhenDone ready resolved, ?_, by rw [stopWhenDone_badRun, link], fun above => ?_⟩
  · rw [stopWhenDone_ret, resolved_ret]
  · have told : Presented s (kept.resolved e .good words) (.linkRestored e.frame s.link.badRun) :=
      presented_resolved_restored (s := kept) ready above
    exact told.within (.refl s) ((grows_resolved kept e .good words).congr rfl) (grows_stopWhenDone _)

/-- The state in which the older of two entries has resolved MISSING and the newer has left the window. -/
def State.olderMissing (s : State) (e' e : WindowEntry) : State :=
  { ({ s with ret.window := [e] } : State).resolved e' .missing [] with ret.window := [] }

theorem windowResolved_olderMissing (ready : s.host.engine = .ready) (config : s.link.config = some k) (e' e : WindowEntry) :
    WindowResolved s (({ s with ret.window := [e] } : State).resolved e' .missing []) (beginsFaultStop s k.threshold) [e]
      (min 65535 (s.link.badRun + 1)) :=
  windowResolved_congr (windowResolved_resolved (s := { s with ret.window := [e] }) ready config e' .missing [] rfl rfl) rfl

theorem olderMissing_host (s : State) (e' e : WindowEntry) : (s.olderMissing e' e).host = s.host := by
  rw [State.olderMissing]
  dsimp only
  rw [resolved_host]

theorem olderMissing_link (ready : s.host.engine = .ready) (config : s.link.config = some k) (e' e : WindowEntry) :
    (s.olderMissing e' e).link =
      { s.link with
        badRun := min 65535 (s.link.badRun + 1)
        state := if beginsFaultStop s k.threshold then .stopping else s.link.state
        stopCause := if beginsFaultStop s k.threshold then some .returnFault else s.link.stopCause
        frameTimer := if beginsFaultStop s k.threshold then false else s.link.frameTimer } := by
  obtain ⟨-, link, -⟩ := windowResolved_olderMissing ready config e' e
  rw [State.olderMissing]
  dsimp only
  rw [link]

theorem olderMissing_lastStation (s : State) (e' e : WindowEntry) : (s.olderMissing e' e).ret.lastStation = s.ret.lastStation := by
  rw [State.olderMissing]
  dsimp only
  rw [resolved_ret]

theorem grows_olderMissing (s : State) (e' e : WindowEntry) : Grows s (s.olderMissing e' e) := by
  have older : Grows s (({ s with ret.window := [e] } : State).resolved e' .missing []) := (grows_resolved _ e' .missing []).congr rfl
  exact older.trans (.of_comp (by rw [State.olderMissing]))

/-- The older of two entries counts as a bad return, with LINK_DEGRADED from a run of 0 (R13, R14). -/
theorem presented_olderMissing (ready : s.host.engine = .ready) (zero : s.link.badRun = 0) (e' e : WindowEntry) :
    Presented s (s.olderMissing e' e) (.linkDegraded e'.frame s.ret.lastStation) := by
  have told : Presented s (({ s with ret.window := [e] } : State).resolved e' .missing []) (.linkDegraded e'.frame s.ret.lastStation) :=
    presented_resolved_degraded (s := { s with ret.window := [e] }) ready zero (by simp)
  exact told.within (.refl s) ((grows_resolved { s with ret.window := [e] } e' .missing []).congr rfl) (.of_comp (by rw [State.olderMissing]))

/-- The newer of two entries answered, good or damaged, after the older has resolved MISSING. -/
theorem windowResolved_newer (ready : s.host.engine = .ready) (config : s.link.config = some k) (r : Resolution) {stops : Bool} {n : Nat}
    (stop : stops = (beginsFaultStop s k.threshold || if r = .good then false else beginsFaultStop (s.olderMissing e' e) k.threshold))
    (run : n = if r = .good then 0 else min 65535 (s.link.badRun + 2)) :
    WindowResolved s ((s.olderMissing e' e).resolved e r words) stops [] n := by
  have link := olderMissing_link ready config e' e
  refine windowResolved_trans (windowResolved_olderMissing ready config e' e) (first := beginsFaultStop s k.threshold)
    (second := if r = .good then false else beginsFaultStop (s.olderMissing e' e) k.threshold) ?_ (by simp) stop
  refine windowResolved_congr (windowResolved_resolved (s := s.olderMissing e' e) (k := k) ?_ ?_ e r words rfl ?_) rfl
  · rw [olderMissing_host]
    exact ready
  · rw [link]
    exact config
  · rw [run, link]
    split
    · rfl
    · dsimp only
      omega

/-- The newer of two entries answered by a good return. -/
theorem goodReturn_of_newer (ready : s.host.engine = .ready) (config : s.link.config = some k) (window : s.ret.window = [e', e])
    (other : e'.frame ≠ e.frame) :
    LinkResolved s (resolveThrough s.ret.window.length e.frame .good words { s with ret.lastStation := station })
      (beginsFaultStop s k.threshold) []
    ∧ (resolveThrough s.ret.window.length e.frame .good words { s with ret.lastStation := station }).ret.lastStation = station
    ∧ (resolveThrough s.ret.window.length e.frame .good words { s with ret.lastStation := station }).link.badRun = 0
    ∧ (s.link.badRun = 0 →
        Presented s (resolveThrough s.ret.window.length e.frame .good words { s with ret.lastStation := station })
          (.linkDegraded e'.frame station))
    ∧ Presented s (resolveThrough s.ret.window.length e.frame .good words { s with ret.lastStation := station })
        (.linkRestored e.frame (min 65535 (s.link.badRun + 1))) := by
  let kept : State := { s with ret.lastStation := station }
  have ready' : kept.host.engine = .ready := ready
  have config' : kept.link.config = some k := config
  have through : resolveThrough s.ret.window.length e.frame .good words { s with ret.lastStation := station }
      = ((kept.olderMissing e' e).resolved e .good words).stopWhenDone :=
    (resolveThrough_of_newer (s := kept) window other .good words).trans (resolve_eq _ _ _ _)
  have resolved : WindowResolved s ((kept.olderMissing e' e).resolved e .good words) (beginsFaultStop s k.threshold) [] 0 :=
    windowResolved_congr (windowResolved_newer (s := kept) ready' config' .good (by rw [if_pos rfl, Bool.or_false]; rfl) rfl) rfl
  have run : (kept.olderMissing e' e).link.badRun = min 65535 (s.link.badRun + 1) := by rw [olderMissing_link ready' config']
  have ready'' : (kept.olderMissing e' e).host.engine = .ready := by rw [olderMissing_host]; exact ready
  have older : Grows s (kept.olderMissing e' e) := (grows_olderMissing kept e' e).congr rfl
  rw [through]
  refine ⟨linkResolved_stopWhenDone ready resolved, ?_, ?_, fun zero => ?_, ?_⟩
  · rw [stopWhenDone_ret, resolved_ret, olderMissing_lastStation]
  · obtain ⟨-, link, -⟩ := resolved
    rw [stopWhenDone_badRun, link]
  · have told : Presented s (kept.olderMissing e' e) (.linkDegraded e'.frame station) := presented_olderMissing ready' zero e' e
    exact told.within (.refl s) older ((grows_resolved _ e .good words).trans (grows_stopWhenDone _))
  · have told := presented_resolved_restored (s := kept.olderMissing e' e) (e := e) (words := words) ready'' (by rw [run]; omega)
    rw [run] at told
    exact told.within older (grows_resolved _ e .good words) (grows_stopWhenDone _)

/-- A good return that answers an entry, from the stations or looped (R11, R13, R14). -/
theorem goodReturnGives (ready : s.host.engine = .ready) : GoodReturnGives s words (.next (s.takeReturn words false)) := by
  intro e e' k station config passes number stn other
  refine ⟨fun rest oldest => ?_, fun window => ?_⟩
  · have window : s.ret.window = e :: rest := by rcases oldest with ⟨window, left⟩ | ⟨window, left⟩ <;> rw [window, left]
    rw [takeReturn_of_good passes number stn ((awaits_iff _ _).2 ⟨e, by simp [window], rfl⟩)]
    exact ⟨_, rfl, goodReturn_of_oldest ready config window⟩
  · rw [takeReturn_of_good passes number stn ((awaits_iff _ _).2 ⟨e, by simp [window], rfl⟩)]
    exact ⟨_, rfl, goodReturn_of_newer ready config window other⟩

/-! ## Entries that resolve bad (R9, R10) -/

/-- What an entry to STOPPED leaves does not depend on the free-value counter. -/
theorem stoppedEntered_freeSeq {u t : State} {a : CommandStatus} (h : StoppedEntered u t a) (n : Nat) :
    StoppedEntered { u with freeSeq := n } { t with freeSeq := n } a := by
  obtain ⟨host, port, proc, pool, ret, comp, rest⟩ := h
  refine ⟨host, port, proc, pool, ret, comp.trans ?_, rest⟩
  by_cases down : u.link.stopCause = some .returnFault
  · rw [if_pos down, if_pos (by exact down)]
    exact afterEvent_comp_congr (s := stopRecorded u a) (t := stopRecorded { u with freeSeq := n } a) rfl _
  · rw [if_neg down, if_neg (by exact down)]
    rfl

/-- What a step leaves does not depend on the free-value counter. -/
theorem linkResolved_freeSeq {t : State} {stops : Bool} (h : LinkResolved s t stops rest) (n : Nat) :
    LinkResolved s { t with freeSeq := n } stops rest := by
  obtain ⟨u, resolved, stopped, stands⟩ := h
  exact ⟨{ u with freeSeq := n }, resolved, fun stopping empty ended => stoppedEntered_freeSeq (stopped stopping empty ended) n,
    fun goesOn => by rw [stands goesOn]⟩

/-- The bad resolution of the oldest entry alone. -/
theorem oldestResolvesBad_resolve (ready : s.host.engine = .ready) (config : s.link.config = some k) {r : Resolution} (bad : r ≠ .good)
    (n : Nat) :
    OldestResolvesBad s e rest k (.next { (({ s with ret.window := rest } : State).resolve e r words) with freeSeq := n }) := by
  let left : State := { s with ret.window := rest }
  have resolved : WindowResolved s (left.resolved e r words) (beginsFaultStop s k.threshold) rest (min 65535 (s.link.badRun + 1)) :=
    windowResolved_congr (windowResolved_resolved (s := left) ready config e r words (if_neg bad).symm (if_neg bad).symm) rfl
  refine ⟨_, rfl, ?_, ?_, ?_, fun zero => ?_⟩
  · rw [resolve_eq]
    exact linkResolved_freeSeq (linkResolved_stopWhenDone ready resolved) n
  · change (left.resolve e r words).ret.lastStation = _
    rw [resolve_ret]
  · obtain ⟨-, link, -⟩ := resolved
    change (left.resolve e r words).link.badRun = _
    rw [resolve_eq, stopWhenDone_badRun, link]
  · have told : Presented s (left.resolved e r words) (.linkDegraded e.frame s.ret.lastStation) :=
      presented_resolved_degraded (s := left) ready zero bad
    have after : Presented s (left.resolve e r words) (.linkDegraded e.frame s.ret.lastStation) := by
      rw [resolve_eq]
      exact told.within (.refl s) ((grows_resolved left e r words).congr rfl) (grows_stopWhenDone _)
    exact after

/-- A damaged return for the oldest entry, from the stations or looped. -/
theorem oldestResolvesBad_damaged (ready : s.host.engine = .ready) (config : s.link.config = some k) (window : s.ret.window = e :: rest)
    (fails : ¬ PassesCheck words ragged) (number : words.head? = some e.frame) :
    OldestResolvesBad s e rest k (.next (s.takeReturn words ragged)) := by
  rw [takeReturn_of_damaged fails number ((awaits_iff _ _).2 ⟨e, by simp [window], rfl⟩), resolveThrough_of_oldest window]
  exact oldestResolvesBad_resolve ready config (by simp) _

theorem beginsFaultStop_iff (s : State) (threshold : Nat) :
    beginsFaultStop s threshold = true ↔
      s.link.state = .running ∧ threshold ≠ 0 ∧ s.link.badRun < 65535 ∧ s.link.badRun + 1 = threshold := by
  simp [beginsFaultStop]

/-- Two bad returns in RUNNING begin a fault stop where one of the two additions reaches the threshold (R33). -/
theorem two_begin_iff (ready : s.host.engine = .ready) (config : s.link.config = some k) (stops : Bool)
    (stop : stops = true ↔ s.link.state = .running ∧ k.threshold ≠ 0
      ∧ ((s.link.badRun < 65535 ∧ s.link.badRun + 1 = k.threshold)
        ∨ (s.link.badRun + 1 < 65535 ∧ s.link.badRun + 2 = k.threshold))) :
    stops = (beginsFaultStop s k.threshold || beginsFaultStop (s.olderMissing e' e) k.threshold) := by
  have state : (s.olderMissing e' e).link.state = if beginsFaultStop s k.threshold then .stopping else s.link.state := by
    rw [olderMissing_link ready config]
  have run : (s.olderMissing e' e).link.badRun = min 65535 (s.link.badRun + 1) := by rw [olderMissing_link ready config]
  rw [Bool.eq_iff_iff, stop, Bool.or_eq_true, beginsFaultStop_iff (s.olderMissing e' e), state, run]
  by_cases first : beginsFaultStop s k.threshold = true
  · rw [if_pos first]
    rw [beginsFaultStop_iff] at first ⊢
    obtain ⟨running, threshold, reaches⟩ := first
    exact ⟨fun _ => .inl ⟨running, threshold, reaches⟩, fun _ => ⟨running, threshold, .inl reaches⟩⟩
  · rw [if_neg first]
    rw [beginsFaultStop_iff] at first ⊢
    constructor
    · rintro ⟨running, threshold, reaches⟩
      refine .inr ⟨running, threshold, ?_⟩
      rcases reaches with now | later
      · exact absurd ⟨running, threshold, now⟩ first
      · omega
    · rintro (now | ⟨running, threshold, later⟩)
      · exact absurd now first
      · exact ⟨running, threshold, .inr (by omega)⟩

/-- A damaged return for the newer of two entries, from the stations or looped. -/
theorem damagedReturnSettlesOlder (ready : s.host.engine = .ready) :
    DamagedReturnSettlesOlder s words ragged (.next (s.takeReturn words ragged)) := by
  intro e e' k stops config fails number other window stop
  rw [takeReturn_of_damaged fails number ((awaits_iff _ _).2 ⟨e, by simp [window], rfl⟩)]
  have through : resolveThrough s.ret.window.length e.frame .damaged words s
      = ((s.olderMissing e' e).resolved e .damaged words).stopWhenDone :=
    (resolveThrough_of_newer window other .damaged words).trans (resolve_eq _ _ _ _)
  rw [through]
  have resolved : WindowResolved s ((s.olderMissing e' e).resolved e .damaged words) stops [] (min 65535 (s.link.badRun + 2)) :=
    windowResolved_newer ready config .damaged (by rw [if_neg (by simp)]; exact two_begin_iff ready config stops stop)
      (if_neg (by simp)).symm
  have kept : ((s.olderMissing e' e).resolved e .damaged words).ret.lastStation = s.ret.lastStation := by
    rw [resolved_ret, olderMissing_lastStation]
  have newer : Grows (s.olderMissing e' e) ((s.olderMissing e' e).resolved e .damaged words) := grows_resolved _ e .damaged words
  generalize (s.olderMissing e' e).resolved e .damaged words = u at resolved kept newer
  refine ⟨_, rfl, linkResolved_freeSeq (linkResolved_stopWhenDone ready resolved) _, ?_, ?_, fun zero => ?_⟩
  · exact (congrArg ReturnUnit.lastStation (stopWhenDone_ret u)).trans kept
  · obtain ⟨-, link, -⟩ := resolved
    exact (stopWhenDone_badRun u).trans (by rw [link])
  · exact (presented_olderMissing ready zero e' e).within (.refl s) (grows_olderMissing s e' e)
      ((newer.trans (grows_stopWhenDone u)).trans (.of_comp rfl))

/-! ## Returns that answer no entry (R10, R12) -/

/-- What a return that answers no entry comes to, with the station word kept that it leaves. -/
theorem takeReturn_of_unmatched (unmatched : words = [] ∨ ∀ e ∈ s.ret.window, e.frame ≠ words.headD s.link.frame)
    (good : PassesCheck words ragged → words[1]? = some station)
    (damaged : ¬ PassesCheck words ragged → station = s.ret.lastStation) :
    s.takeReturn words ragged =
      (({ s with ret.lastStation := station } : State).badReturn (words.headD s.link.frame)).stopWhenDone := by
  cases words with
  | nil =>
    have fails : ¬ PassesCheck [] ragged := fun h => by simpa using h.1
    rw [State.takeReturn, if_neg (mt (goodCheck_iff _ _).1 fails), damaged fails]
    rfl
  | cons n tail =>
    have stray : ¬ s.awaits n = true := by
      rw [awaits_iff]
      rintro ⟨e, mem, same⟩
      exact unmatched.elim (fun h => by simp at h) (fun h => h e mem same)
    by_cases passes : PassesCheck (n :: tail) ragged
    · rw [State.takeReturn, if_pos ((goodCheck_iff _ _).2 passes), State.takeGoodReturn, getD_of_getElem? (good passes)]
      exact if_neg stray
    · rw [State.takeReturn, if_neg (mt (goodCheck_iff _ _).1 passes), damaged passes]
      exact if_neg stray

/-- A return that answers no entry, from the stations or looped (R12, R14, R15, R33). -/
theorem unmatchedReturnGives (ready : s.host.engine = .ready) :
    UnmatchedReturnGives s words ragged (.next (s.takeReturn words ragged)) := by
  intro k n station stops config number unmatched good damaged stop counted told count tell
  rw [takeReturn_of_unmatched (number ▸ unmatched) good damaged, ← number]
  have result : ({ s with ret.lastStation := station } : State).badReturn n = told := by
    have reaches : ({ s with ret.lastStation := station } : State).reachesThreshold = stops :=
      (reachesThreshold_eq (s := { s with ret.lastStation := station }) config).trans stop.symm
    rw [badReturn_eq (s := { s with ret.lastStation := station }) ready, tell, count, State.badCounted, reaches]
  have link : told.link = counted.link := by rw [tell]; split <;> simp
  have ret : told.ret = counted.ret := by rw [tell, State.afterEvent]; split <;> [split; skip] <;> rfl
  have host : told.host = counted.host := by rw [tell, State.afterEvent]; split <;> [split; skip] <;> rfl
  have window : told.ret.window = s.ret.window := by rw [ret, count]
  have sent : told.link.transmitting = s.link.transmitting := by rw [link, count]
  rw [result]
  refine ⟨fun goesOn => ?_, fun stopping empty ended => ?_⟩
  · refine congrArg Host.Outcome.next (stopWhenDone_of_not_done ?_)
    rw [window, sent]
    rintro ⟨stopping, empty, ended⟩
    rcases goesOn with running | left | sending
    · simp [running] at stopping
    · exact left empty
    · simp [sending] at ended
  · refine ⟨_, congrArg Host.Outcome.next (stopWhenDone_of_done stopping (window.trans empty) (sent.trans ended)),
      stoppedEntered_enterStopped ?_ _⟩
    rw [host, count]
    exact ready

end

/-! ## The statements -/

/-- Settles O29. -/
theorem unmatchedReturnCounts : Obligations.UnmatchedReturnCounts := by
  intro s words ragged takes
  rw [exec_returnArrival_of_takes takes]
  exact unmatchedReturnGives takes.1

theorem badResolutionCounts : Claims.BadResolutionCounts := by
  refine ⟨fun s words ragged e rest k c config window comes => ?_, fun s empty => ?_⟩
  · rcases comes with ⟨rfl, takes, fails, number⟩ | ⟨rfl, ready, state⟩
    · rw [exec_returnArrival_of_takes takes]
      exact oldestResolvesBad_damaged takes.1 config window fails number
    · have row : exec .deadlineExpiry s
          = .next { (({ s with ret.window := rest } : State).resolve e .missing []) with freeSeq := s.freeSeq } := by
        refine congrArg Host.Outcome.next ((if_pos ((takesArrivals_iff s).2 ⟨ready, state⟩)).trans ?_)
        rw [resolveOldestMissing_eq window, resolve_frame]
      rw [row]
      exact oldestResolvesBad_resolve ready config (by simp) _
  · refine congrArg Host.Outcome.next ?_
    split
    · rw [State.resolveOldestMissing, empty]
    · rfl

/-- Settles O30. -/
theorem returnsResolveTheWindow : Obligations.ReturnsResolveTheWindow := by
  refine ⟨fun s words takes => ?_, badResolutionCounts, fun s words ragged takes => ?_⟩
  · rw [exec_returnArrival_of_takes takes]
    exact goodReturnGives takes.1
  · rw [exec_returnArrival_of_takes takes]
    exact damagedReturnSettlesOlder takes.1

/-- Settles O31: the looped return is taken as one from the stations is. -/
theorem loopedReturnResolves : Obligations.LoopedReturnResolves := by
  intro s made words makes same
  subst same
  rw [exec_loopedReturn_of_makes makes]
  have ready : ({ s with link.loopDue := false } : State).host.engine = .ready := makes.1
  exact ⟨goodReturnGives ready, fun e rest k config fails number window => oldestResolvesBad_damaged ready config window fails number,
    damagedReturnSettlesOlder ready, unmatchedReturnGives ready⟩

end Sys2Proof.Machine

/-!
The words of an outbound frame (R1 to R4, R18, R106, R200): its number, its generation word and its check word, and on each OUT slot the
word and fresh mark of the table of R106.
-/
namespace Sys2Proof.Machine

/-! ## The frame's words (R200) -/

section
variable {f : FrameNo} {g : Word} {slots : List (Word × Bool)} {corrupt : Bool}

/-- The words of a frame before its check word. -/
def frameBody (f : FrameNo) (g : Word) (slots : List (Word × Bool)) : List Word :=
  f :: g :: BitVec.ofNat 32 (packBits ((slots.map (·.2)).take 32)) :: BitVec.ofNat 32 (packBits ((slots.map (·.2)).drop 32))
    :: slots.map (·.1)

theorem frameWords_eq : frameWords f g slots corrupt =
    frameBody f g slots ++ [if corrupt then ~~~ checkWord (frameBody f g slots) else checkWord (frameBody f g slots)] := rfl

theorem frameBody_length (all : slots.length = 48) : (frameBody f g slots).length = 52 := by simp [frameBody, all]

theorem frameWords_length (all : slots.length = 48) : (frameWords f g slots corrupt).length = 53 := by
  rw [frameWords_eq, List.length_append, frameBody_length all]
  rfl

theorem frameWords_number : (frameWords f g slots corrupt)[0]? = some f := rfl

theorem frameWords_generation : (frameWords f g slots corrupt)[1]? = some g := rfl

/-- The check word agrees with the others unless CORRUPT_OUT acted (R18). -/
theorem goodCheck_frameWords (all : slots.length = 48) : goodCheck (frameWords f g slots corrupt) false = true ↔ corrupt = false := by
  have last : (frameWords f g slots corrupt)[52]? =
      some (if corrupt then ~~~ checkWord (frameBody f g slots) else checkWord (frameBody f g slots)) := by
    rw [frameWords_eq, List.getElem?_append_right (by rw [frameBody_length all]), frameBody_length all]
    rfl
  have first : (frameWords f g slots corrupt).take 52 = frameBody f g slots := by
    rw [frameWords_eq, List.take_append_of_le_length (by rw [frameBody_length all]), List.take_of_length_le (by rw [frameBody_length all])]
  rw [goodCheck_iff, PassesCheck, last, first]
  cases corrupt
  · simp [frameWords_length all]
  · simp

/-- Slot word `k` and fresh mark `k` of a frame. -/
theorem carries_frameWords (all : slots.length = 48) {slot : SlotId} {w : Word} {fresh : Bool}
    (here : slots[slot.val]? = some (w, fresh)) : carries (frameWords f g slots corrupt) slot w fresh := by
  have inside : slot.val < 48 := slot.isLt
  have mark : (slots.map (·.2)).getD slot.val false = fresh := by
    rw [List.getD_eq_getElem?_getD, List.getElem?_map, here]
    rfl
  refine ⟨?_, ?_⟩
  · rw [frameWords_eq, List.getElem?_append_left (by rw [frameBody_length all]; omega), frameBody, Nat.add_comm]
    change (slots.map (·.1))[slot.val]? = some w
    rw [List.getElem?_map, here]
    rfl
  · have low : (frameWords f g slots corrupt).getD 2 0 = BitVec.ofNat 32 (packBits ((slots.map (·.2)).take 32)) := rfl
    have high : (frameWords f g slots corrupt).getD 3 0 = BitVec.ofNat 32 (packBits ((slots.map (·.2)).drop 32)) := rfl
    rw [validMark, low, high]
    by_cases below : slot.val < 32
    · rw [if_pos below, BitVec.getLsbD_ofNat, decide_eq_true below, Bool.true_and, testBit_packBits, ← mark,
        List.getD_eq_getElem?_getD, List.getElem?_take_of_lt below, List.getD_eq_getElem?_getD]
    · rw [if_neg below, BitVec.getLsbD_ofNat, decide_eq_true (by omega), Bool.true_and, testBit_packBits, ← mark,
        List.getD_eq_getElem?_getD, List.getElem?_drop, List.getD_eq_getElem?_getD]
      congr 2
      omega

end

/-! ## The slots of a frame (R62, R64, R106) -/

section
variable {b : State} {f : FrameNo} {p : Placement} {sh : Shape}

theorem composeSlots_length (b : State) (f : FrameNo) : (b.composeSlots f).length = 48 := by simp [State.composeSlots]

theorem composeSlots_getElem (b : State) (f : FrameNo) (slot : SlotId) : (b.composeSlots f)[slot.val]? = some (b.slotWord f slot) := by
  simp [State.composeSlots]

theorem outDue_iff {i : StreamId} :
    b.outDue i f = true ↔ ∃ sh, (b.stream i).shape = some sh ∧ sh.kind.lane = .outLane ∧ f.toNat % sh.period = sh.phase := by
  unfold State.outDue
  cases (b.stream i).shape <;> simp [Shape.dueIn]

/-- Two streams that are due in one frame collide (R64). -/
theorem streamsCollide_of_due {i j : StreamId} (legal : ∀ (i : StreamId) (sh : Shape), (b.stream i).shape = some sh → sh.legal)
    (first : b.outDue i f = true) (second : b.outDue j f = true) : b.streamsCollide i j = true := by
  obtain ⟨x, shape, -, due⟩ := outDue_iff.1 first
  obtain ⟨y, shape', -, due'⟩ := outDue_iff.1 second
  obtain ⟨-, -, period, phase, -⟩ := legal i x shape
  obtain ⟨-, -, period', phase', -⟩ := legal j y shape'
  obtain ⟨-, meets, -⟩ := collisionRule x.period period y.period period' x.phase y.phase phase phase'
  rw [State.streamsCollide, shape, shape']
  exact meets.2 ⟨f, due, due'⟩

/-- Of the placements on a slot one alone is due in a frame, so that it is the one found (R64, R106). -/
theorem dueOnSlot_of_due (fits : b.bankFits b.sched.active)
    (legal : ∀ (i : StreamId) (sh : Shape), (b.stream i).shape = some sh → sh.legal) (mem : p ∈ b.sched.active)
    (lane : p.lane = .outLane) (due : b.outDue p.stream f = true) : b.dueOnSlot f p.slot = some p := by
  obtain ⟨-, pairs, -⟩ := fits
  cases found : b.dueOnSlot f p.slot with
  | none =>
    have missed := List.find?_eq_none.1 found p mem
    simp [lane, due] at missed
  | some q =>
    have here : (decide (q.lane = .outLane ∧ q.slot = p.slot) && b.outDue q.stream f) = true := by simpa using List.find?_some found
    simp only [Bool.and_eq_true, decide_eq_true_eq] at here
    obtain ⟨⟨lane', slot'⟩, due'⟩ := here
    by_contra different
    have distinct : q ≠ p := fun same => different (by rw [same])
    have : Std.Symm b.placementsAgree := ⟨fun _ _ agree => placementsAgree_symm b agree⟩
    obtain ⟨-, apart⟩ := pairs.forall (List.mem_of_find?_eq_some found) mem distinct
    have collides := streamsCollide_of_due legal due' due
    simp [apart (lane'.trans lane.symm) slot'] at collides

/-- The slot word of a due out-stream is its row of the table (R106). -/
theorem slotWord_of_due (fits : b.bankFits b.sched.active)
    (legal : ∀ (i : StreamId) (sh : Shape), (b.stream i).shape = some sh → sh.legal) (mem : p ∈ b.sched.active)
    (lane : p.lane = .outLane) (shape : (b.stream p.stream).shape = some sh) (out : sh.kind.lane = .outLane)
    (due : f.toNat % sh.period = sh.phase) :
    b.slotWord f p.slot = (b.stream p.stream).turnWord sh b.link.idleFillWord p.channel.val := by
  rw [State.slotWord, dueOnSlot_of_due fits legal mem lane (outDue_iff.2 ⟨sh, shape, out, due⟩)]
  dsimp only
  rw [shape]

/-- A slot on which no placement's stream is due carries the idle fill word. -/
theorem slotWord_of_idle {slot : SlotId} (idle : ∀ (p : Placement) (sh : Shape), p ∈ b.sched.active → p.lane = .outLane → p.slot = slot →
    (b.stream p.stream).shape = some sh → f.toNat % sh.period ≠ sh.phase) : b.slotWord f slot = (b.link.idleFillWord, false) := by
  have absent : b.dueOnSlot f slot = none := by
    refine List.find?_eq_none.2 fun p mem found => ?_
    simp only [Bool.and_eq_true, decide_eq_true_eq] at found
    obtain ⟨⟨lane, here⟩, due⟩ := found
    obtain ⟨sh, shape, -, now⟩ := outDue_iff.1 due
    exact idle p sh mem lane here shape now
  rw [State.slotWord, absent]

/-- The words of a frame composed from the bank in force follow the table (R106 to R110). -/
theorem slotsFollow_composed (fits : b.bankFits b.sched.active)
    (legal : ∀ (i : StreamId) (sh : Shape), (b.stream i).shape = some sh → sh.legal) (g : Word) (corrupt : Bool) :
    SlotsFollow b.sched.active b.stream f b.link.idleFillWord (frameWords f g (b.composeSlots f) corrupt) := by
  have carried {slot : SlotId} {w : Word} {fresh : Bool} (word : b.slotWord f slot = (w, fresh)) :
      carries (frameWords f g (b.composeSlots f) corrupt) slot w fresh :=
    carries_frameWords (composeSlots_length b f) (by rw [composeSlots_getElem, word])
  refine ⟨fun p sh policy c mem lane named shape kind due => ?_, fun slot idle => carried (slotWord_of_idle idle)⟩
  subst named
  have row := slotWord_of_due fits legal mem lane shape (by rw [kind]; rfl) due
  refine ⟨fun live staged x here => carried ?_, fun live short again w last => carried ?_, fun live short fill => carried ?_,
    fun stopped => carried ?_⟩
  · rw [row, Stream.turnWord, live]
    simp [staged, here]
  · subst again
    rw [row, Stream.turnWord, live]
    simp [Nat.not_le.2 short, kind, last]
  · rw [row, Stream.turnWord, live]
    by_cases fills : policy = .fill
    · subst fills
      simp [Nat.not_le.2 short, kind]
    · have repeats : policy = .repeat := by
        cases policy <;> [rfl; exact absurd rfl fills]
      have last := fill.resolve_left fills
      subst repeats
      simp [Nat.not_le.2 short, kind, last]
  · rcases stopped with state | state <;> rw [row, Stream.turnWord, state]

end

end Sys2Proof.Machine

/-!
The frame start in its parts (R23): the bank in force settled, the turns of the out-streams, the entry into the window, the lines and the
words; and the three rows that make one (R23, R26, R28).
-/
namespace Sys2Proof.Machine

section
variable {s t : State} {f : FrameNo} {i : StreamId}

/-! ## The bank in force (R77, R79) -/

/-- The state from which frame `f` is composed: its number taken, the timer running and the bank in force settled. -/
def State.settledFor (s : State) (f : FrameNo) : State :=
  ({ s with link.frame := f, link.frameTimer := true } : State).settleBank f

theorem settledFor_frame (s : State) (f : FrameNo) :
    s.settledFor f =
      { s with
        link := { s.link with frame := f, frameTimer := true }
        sched := (s.settledFor f).sched
        streams := (s.settledFor f).streams
        comp := (s.settledFor f).comp } :=
  settleBank_frame _ f

theorem swapsAt_iff : s.swapsAt f = true ↔ s.sched.swapArmed = true ∧ f.toNat % 64 = 0 := by simp [State.swapsAt]

theorem settledFor_moves (s : State) (f : FrameNo) :
    (s.settledFor f).sched = (if s.swapsAt f then { s.scheduleSwapped with commit := none } else s.sched)
    ∧ ∀ i : StreamId, (s.settledFor f).stream i = s.streamFor f i := by
  rw [State.settledFor, State.settleBank]
  by_cases round : f.toNat % 64 = 0
  · have swaps : s.swapsAt f = s.sched.swapArmed := by simp [State.swapsAt, round]
    obtain ⟨sched, streams⟩ := performArmedSwap_moves { s with link.frame := f, link.frameTimer := true } (some f)
    rw [if_pos round, swaps]
    refine ⟨sched, fun i => ?_⟩
    rw [State.streamFor, swaps]
    exact streams i
  · have swaps : s.swapsAt f = false := by simp [State.swapsAt, round]
    rw [if_neg round, swaps]
    refine ⟨rfl, fun i => ?_⟩
    rw [State.streamFor, swaps]
    rfl

theorem settledFor_stream (s : State) (f : FrameNo) (i : StreamId) : (s.settledFor f).stream i = s.streamFor f i := (settledFor_moves s f).2 i

theorem settledFor_sched_of_no_swap (none : s.swapsAt f = false) : (s.settledFor f).sched = s.sched := by
  rw [(settledFor_moves s f).1, none]
  rfl

theorem settledFor_sched_of_swap (swaps : s.swapsAt f = true) :
    (s.settledFor f).sched = { s.scheduleSwapped with commit := none } := by
  rw [(settledFor_moves s f).1, swaps]
  rfl

theorem settledFor_active (s : State) (f : FrameNo) : (s.settledFor f).sched.active = s.bankFor f := by
  rw [(settledFor_moves s f).1, State.bankFor]
  split <;> rfl

theorem grows_settledFor (s : State) (f : FrameNo) : Grows s (s.settledFor f) :=
  (grows_commandBlind s).linkStable.settleBank f (.of_comp rfl)

theorem settledFor_comp_of_no_swap (none : s.swapsAt f = false) : (s.settledFor f).comp = s.comp := by
  rw [State.settledFor, State.settleBank]
  split
  · next round =>
    have idle : s.sched.swapArmed = false := by simpa [State.swapsAt, round] using none
    rw [performArmedSwap_comp, swapRecords, if_neg (by simp [idle]), filled_nil]
  · rfl

/-- A swap changes of a stream its state, and its run where it is an out-stream (R39). -/
theorem moved_eq (c : Stream) (named : Bool) :
    c.moved named = { c with state := (c.moved named).state, runFlag := (c.moved named).runFlag, runCount := (c.moved named).runCount } := by
  unfold Stream.moved
  split
  · rfl
  · split <;> rfl
  · split <;> rfl
  · rfl
  · rfl

theorem streamFor_eq (s : State) (f : FrameNo) (i : StreamId) :
    s.streamFor f i =
      { s.stream i with
        state := (s.streamFor f i).state, runFlag := (s.streamFor f i).runFlag, runCount := (s.streamFor f i).runCount } := by
  unfold State.streamFor
  split
  · exact moved_eq _ _
  · rfl

theorem streamFor_shape (s : State) (f : FrameNo) (i : StreamId) : (s.streamFor f i).shape = (s.stream i).shape := by rw [streamFor_eq]

/-! ## The turns of the out-streams (R106) -/

/-- The state after the turns of frame `f`. -/
@[irreducible] def State.sentFor (s : State) (f : FrameNo) : State := allStreams.foldl (outStreamTurn f) (s.settledFor f)

theorem sentFor_eq (s : State) (f : FrameNo) : s.sentFor f = allStreams.foldl (outStreamTurn f) (s.settledFor f) := by
  delta State.sentFor
  exact Eq.refl _

theorem sentFor_frame (s : State) (f : FrameNo) :
    s.sentFor f = { s.settledFor f with comp := (s.sentFor f).comp, streams := (s.sentFor f).streams } := by
  rw [sentFor_eq]
  exact outTurns_frame _ f _

theorem sentFor_sched (s : State) (f : FrameNo) : (s.sentFor f).sched = (s.settledFor f).sched := by rw [sentFor_frame]

theorem sentFor_host (s : State) (f : FrameNo) : (s.sentFor f).host = s.host := by rw [sentFor_frame, settledFor_frame]

theorem sentFor_ret (s : State) (f : FrameNo) : (s.sentFor f).ret = s.ret := by rw [sentFor_frame, settledFor_frame]

theorem sentFor_lines (s : State) (f : FrameNo) : (s.sentFor f).lines = s.lines := by rw [sentFor_frame, settledFor_frame]

theorem sentFor_link (s : State) (f : FrameNo) : (s.sentFor f).link = { s.link with frame := f, frameTimer := true } := by
  rw [sentFor_frame, settledFor_frame]

theorem grows_sentFor (s : State) (f : FrameNo) : Grows (s.settledFor f) (s.sentFor f) := by
  rw [sentFor_eq]
  exact grows_foldl (grows_outStreamTurn f) _ _

theorem onlyRecords_sentFor (s : State) (f : FrameNo) : OnlyRecords (s.settledFor f) (s.sentFor f) := by
  rw [sentFor_eq]
  exact onlyRecords_outTurns _ f _

/-- The stream's own turn alone changes it, and finds it as the swap left it. -/
theorem sentFor_turn (s : State) (f : FrameNo) (i : StreamId) :
    ∃ u : State, u.stream i = s.streamFor f i ∧ u.sched = (s.settledFor f).sched ∧ u.host = s.host
      ∧ Grows s u ∧ Grows (outStreamTurn f u i) (s.sentFor f)
      ∧ (s.sentFor f).stream i = (outStreamTurn f u i).stream i := by
  obtain ⟨before, after, order, found, left⟩ :=
    foldl_at_stream (g := outStreamTurn f) (fun s _ _ => stream_outStreamTurn_of_ne f s) (s.settledFor f) i
  have frame := outTurns_frame (s.settledFor f) f before
  have grew : Grows (s.settledFor f) (before.foldl (outStreamTurn f) (s.settledFor f)) := grows_foldl (grows_outStreamTurn f) _ _
  refine ⟨before.foldl (outStreamTurn f) (s.settledFor f), by rw [found, settledFor_stream], by rw [frame], ?_,
    (grows_settledFor s f).trans grew, ?_, by rw [sentFor_eq, left]⟩
  · rw [frame, settledFor_frame]
  · rw [sentFor_eq, order]
    exact grows_foldl (grows_outStreamTurn f) _ _

/-- A stream that is not LIVE, not named or not due is left as it stands, and so is an in-stream (R106, R109, R110). -/
theorem outStreamTurn_of_idle
    (idle : (s.stream i).state ≠ .live ∨ s.sched.active.names i = false
      ∨ ∀ sh : Shape, (s.stream i).shape = some sh → sh.kind.lane = .inLane ∨ f.toNat % sh.period ≠ sh.phase) :
    outStreamTurn f s i = s := by
  unfold outStreamTurn
  dsimp only
  split
  · rfl
  · refine if_neg fun turn => ?_
    simp only [Bool.and_eq_true, decide_eq_true_eq] at turn
    obtain ⟨⟨named, due⟩, live⟩ := turn
    obtain ⟨sh, shape, lane, now⟩ := outDue_iff.1 due
    rcases idle with other | unnamed | apart
    · exact other live
    · simp [unnamed] at named
    · rcases apart sh shape with inLane | later
      · simp [inLane] at lane
      · exact later now

/-- What no turn of the frame touches stands as the swap left it. -/
theorem sentFor_stream_of_idle
    (idle : (s.streamFor f i).state ≠ .live ∨ (s.bankFor f).names i = false
      ∨ ∀ sh : Shape, (s.stream i).shape = some sh → sh.kind.lane = .inLane ∨ f.toNat % sh.period ≠ sh.phase) :
    (s.sentFor f).stream i = s.streamFor f i := by
  obtain ⟨u, found, sched, -, -, -, turn⟩ := sentFor_turn s f i
  rw [turn, outStreamTurn_of_idle, found]
  rwa [found, sched, settledFor_active, streamFor_shape]

/-- A LIVE out-stream, named and due, takes a good turn or underruns (R106). -/
theorem outStreamTurn_of_due {sh : Shape} (shape : (s.stream i).shape = some sh) (lane : sh.kind.lane = .outLane)
    (named : s.sched.active.names i = true) (due : f.toNat % sh.period = sh.phase) (live : (s.stream i).state = .live) :
    outStreamTurn f s i = if sh.channels ≤ (s.stream i).samples.length then s.goodTurn i sh f else s.underrunTurn i f := by
  have now : s.outDue i f = true := outDue_iff.2 ⟨sh, shape, lane, due⟩
  simp [outStreamTurn, shape, named, now, live]

/-! ## The entry into the window (R8) -/

/-- The state in which the frames before `f` have made room: the older of two has resolved MISSING. -/
def State.roomFor (s : State) (f : FrameNo) : State :=
  if 2 ≤ s.ret.window.length then (s.sentFor f).resolveOldestMissing else s.sentFor f

/-- The entry of frame `f`. -/
def State.entryOf (s : State) (f : FrameNo) : WindowEntry where
  frame := f
  generation := (s.settledFor f).sched.generation
  deadline := 2 * (s.roomFor f).link.framePeriod

theorem roomFor_of_short (short : s.ret.window.length ≤ 1) : s.roomFor f = s.sentFor f := if_neg (by omega)

/-- Where the older entry leaves, another is left, so that the link does not pass to STOPPED (R32). -/
theorem roomFor_of_long {e : WindowEntry} {rest : List WindowEntry} (window : s.ret.window = e :: rest) (more : rest ≠ []) :
    s.roomFor f = ({ s.sentFor f with ret.window := rest } : State).resolved e .missing [] := by
  have long : 2 ≤ s.ret.window.length := by
    have := List.length_pos_iff.2 more
    rw [window, List.length_cons]
    omega
  have held : (s.sentFor f).ret.window = e :: rest := by rw [sentFor_ret, window]
  rw [State.roomFor, if_pos long, resolveOldestMissing_eq held, resolve_eq_resolved more]

/-- What making room changes: the link's health, the window, the retiring mark, records, and in-streams' elements and runs. -/
theorem roomFor_frame (s : State) (f : FrameNo) :
    s.roomFor f =
      { s.sentFor f with
        link := (s.roomFor f).link
        comp := (s.roomFor f).comp
        streams := (s.roomFor f).streams
        ret := (s.roomFor f).ret
        sched := { (s.sentFor f).sched with retiring := (s.roomFor f).sched.retiring } } := by
  by_cases long : 2 ≤ s.ret.window.length
  · obtain ⟨e, rest, window, more⟩ : ∃ e rest, s.ret.window = e :: rest ∧ rest ≠ [] := by
      cases window : s.ret.window with
      | nil => simp [window] at long
      | cons e rest => exact ⟨e, rest, rfl, fun none => by simp [window, none] at long⟩
    rw [roomFor_of_long window more, resolved_frame]
  · rw [roomFor_of_short (by omega)]

theorem grows_roomFor (s : State) (f : FrameNo) : Grows (s.sentFor f) (s.roomFor f) := by
  unfold State.roomFor
  split
  · exact (grows_commandBlind _).linkStable.resolveOldestMissing (.refl _)
  · exact .refl _

/-- Making room moves an in-stream's elements and run alone, and no out-stream; with one entry at most it moves none. -/
theorem roomFor_stream (s : State) (f : FrameNo) (i : StreamId) :
    { (s.roomFor f).stream i with elements := [], runFlag := false, runCount := 0 } =
      { (s.sentFor f).stream i with elements := [], runFlag := false, runCount := 0 }
    ∧ (s.ret.window.length ≤ 1 ∨ (∀ sh : Shape, ((s.sentFor f).stream i).shape = some sh → sh.kind.lane = .outLane) →
        (s.roomFor f).stream i = (s.sentFor f).stream i) := by
  cases window : s.ret.window with
  | nil =>
    rw [roomFor_of_short (by simp [window])]
    exact ⟨rfl, fun _ => rfl⟩
  | cons e rest =>
    by_cases more : rest = []
    · rw [roomFor_of_short (by simp [window, more])]
      exact ⟨rfl, fun _ => rfl⟩
    · obtain ⟨moved, out⟩ := turned_stream { s.sentFor f with ret.window := rest } e .missing [] i
      rw [roomFor_of_long window more, resolved_stream]
      refine ⟨moved, fun stays => out (stays.resolve_left ?_)⟩
      have := List.length_pos_iff.2 more
      rw [List.length_cons]
      omega

theorem roomFor_sched_of_short (short : s.ret.window.length ≤ 1) : (s.roomFor f).sched = (s.settledFor f).sched := by
  rw [roomFor_of_short short, sentFor_sched]

theorem roomFor_active (s : State) (f : FrameNo) : (s.roomFor f).sched.active = s.bankFor f := by
  rw [roomFor_frame]
  dsimp only
  rw [sentFor_sched, settledFor_active]

theorem roomFor_lines (s : State) (f : FrameNo) : (s.roomFor f).lines = s.lines := by
  rw [roomFor_frame]
  exact sentFor_lines s f

/-- The state and the shape of a stream are those that the swap leaves. -/
theorem roomFor_state (s : State) (f : FrameNo) (i : StreamId) :
    ((s.roomFor f).stream i).state = (s.streamFor f i).state ∧ ((s.roomFor f).stream i).shape = (s.stream i).shape := by
  obtain ⟨u, found, -, -, -, -, turn⟩ := sentFor_turn s f i
  have moved := (roomFor_stream s f i).1
  have sent : ((s.sentFor f).stream i).state = (s.streamFor f i).state ∧ ((s.sentFor f).stream i).shape = (s.stream i).shape := by
    rw [turn, stream_outStreamTurn, found]
    exact ⟨rfl, streamFor_shape s f i⟩
  have state := congrArg Stream.state moved
  have shape := congrArg Stream.shape moved
  exact ⟨state.trans sent.1, shape.trans sent.2⟩

/-! ## The whole frame start -/

theorem frameStart_eq (s : State) (f : FrameNo) :
    s.frameStart f =
      (({ s.roomFor f with ret.window := (s.roomFor f).ret.window ++ [s.entryOf f] } : State).setLines f).transmit f
        (s.settledFor f).sched.generation ((s.settledFor f).composeSlots f) := by
  have held : (s.sentFor f).ret.window.length = s.ret.window.length := by rw [sentFor_ret]
  have entered : (s.sentFor f).appendToWindow f (s.settledFor f).sched.generation
      = { s.roomFor f with ret.window := (s.roomFor f).ret.window ++ [s.entryOf f] } := by
    rw [State.appendToWindow, held]
    rfl
  rw [← entered, sentFor_eq]
  rfl

/-- The generation word of frame `f`, which is FIRST where no frame of the run came before. -/
def State.wordFor (s : State) (f : FrameNo) : Word :=
  generationWord (s.settledFor f).sched.generation (s.roomFor f).link.runGeneration.isNone
    (newGenerationFlag (s.roomFor f).link.runGeneration (s.settledFor f).sched.generation)

/-- The words that frame `f` puts in transmission. -/
def State.wordsFor (s : State) (f : FrameNo) : List Word :=
  frameWords f (s.wordFor f) ((s.settledFor f).composeSlots f) (s.roomFor f).link.corruptOut

theorem frameStart_link (s : State) (f : FrameNo) :
    (s.frameStart f).link =
      { (s.roomFor f).link with
        outFrame := some (s.wordsFor f)
        corruptOut := false
        transmitting := true
        loopDue := (s.roomFor f).link.isInternal
        runGeneration := some (s.settledFor f).sched.generation } := by
  rw [frameStart_eq]
  rfl

theorem frameStart_ret (s : State) (f : FrameNo) :
    (s.frameStart f).ret = { (s.roomFor f).ret with window := (s.roomFor f).ret.window ++ [s.entryOf f] } := by
  rw [frameStart_eq]
  rfl

theorem frameStart_comp (s : State) (f : FrameNo) : (s.frameStart f).comp = (s.roomFor f).comp := by
  rw [frameStart_eq]
  rfl

theorem frameStart_sched (s : State) (f : FrameNo) : (s.frameStart f).sched = (s.roomFor f).sched := by
  rw [frameStart_eq]
  rfl

theorem frameStart_streams (s : State) (f : FrameNo) : (s.frameStart f).streams = (s.roomFor f).streams := by
  rw [frameStart_eq]
  rfl

theorem frameStart_stream (s : State) (f : FrameNo) (i : StreamId) : (s.frameStart f).stream i = (s.roomFor f).stream i :=
  stream_congr (frameStart_streams s f) i

theorem frameStart_lines (s : State) (f : FrameNo) :
    (s.frameStart f).lines =
      { s.lines with
        sense := Vector.ofFn fun k => { s.lines.sense[k] with frameMark := false }
        markers := Vector.ofFn fun m => { s.lines.markers[m] with active := (s.roomFor f).markerActive f s.lines.markers[m] } } := by
  have lines := roomFor_lines s f
  rw [frameStart_eq]
  unfold State.transmit State.setLines
  dsimp only
  rw [lines]
  rfl

theorem frameStart_keeps (s : State) (f : FrameNo) :
    (s.frameStart f).host = s.host ∧ (s.frameStart f).port = s.port ∧ (s.frameStart f).proc = s.proc
    ∧ (s.frameStart f).freePool = s.freePool := by
  have frame := frameStart_frame s f
  exact ⟨by rw [frame], by rw [frame], by rw [frame], by rw [frame]⟩

theorem grows_frameStart (s : State) (f : FrameNo) : Grows s (s.frameStart f) :=
  (((grows_settledFor s f).trans (grows_sentFor s f)).trans (grows_roomFor s f)).trans (.of_comp (frameStart_comp s f))

/-- The slot words of the frame follow the table under the bank in force (R106). -/
theorem wordsFor_follow (fits : ∀ b ∈ s.sched.banks, s.bankFits b)
    (legal : ∀ (i : StreamId) (sh : Shape), (s.stream i).shape = some sh → sh.legal) :
    SlotsFollow (s.bankFor f) (s.streamFor f) f s.link.idleFillWord (s.wordsFor f) := by
  have active := settledFor_active s f
  have context : (s.settledFor f).stream = s.streamFor f := funext (settledFor_stream s f)
  have shape (i : StreamId) : ((s.settledFor f).stream i).shape = (s.stream i).shape := by rw [settledFor_stream, streamFor_shape]
  have idle : (s.settledFor f).link.idleFillWord = s.link.idleFillWord := by rw [settledFor_frame]; rfl
  have held : s.bankFor f ∈ s.sched.banks := by
    have both : s.sched.active ∈ s.sched.banks ∧ s.sched.pending ∈ s.sched.banks := by
      unfold Schedule.banks
      cases s.sched.load <;> simp
    unfold State.bankFor
    split
    · exact both.2
    · exact both.1
  have follow := slotsFollow_composed (b := s.settledFor f) (f := f)
    (by rw [active]; exact bankFits_congr (fits _ held) fun i _ => shape i)
    (fun i sh here => legal i sh (by rw [← shape]; exact here)) (s.wordFor f) (s.roomFor f).link.corruptOut
  rwa [active, context, idle] at follow

end

end Sys2Proof.Machine

/-!
The three rows that make a frame start (R23, R26, R28), and what holds of every frame that they start: the pins, the markers, the slot
words, and the streams that no turn touches.
-/
namespace Sys2Proof.Machine

/-! ## The rows -/

/-- The state `a`, from which a row starts a frame, is the state `s` that the row finds, but for records and the link's run. -/
structure StartsAs (s a : State) : Prop where
  engine : a.host.engine = .ready
  streams : a.streams = s.streams
  sched : a.sched = s.sched
  freePool : a.freePool = s.freePool
  ret : a.ret = s.ret
  markers : a.lines.markers = s.lines.markers
  config : a.link.config = s.link.config
  grows : Grows s a

/-- The state `t`, which a row leaves, is the state `z` that the frame start leaves, but for records and what follows in the step. -/
structure EndsAs (z t : State) : Prop where
  streams : t.streams = z.streams
  sched : t.sched = z.sched
  freePool : t.freePool = z.freePool
  markers : t.lines.markers = z.lines.markers
  link : t.link = z.link
  grows : Grows z t

section
variable {s t a z : State} {f : FrameNo} {c : Instr} {i : StreamId}

theorem EndsAs.refl (z : State) : EndsAs z z := ⟨rfl, rfl, rfl, rfl, rfl, .refl z⟩

theorem looked_groups (s : State) : s.looked = { s with comp := s.looked.comp, proc := s.looked.proc, port := s.looked.port } := by
  unfold State.looked
  split
  · rfl
  · split
    · split <;> rfl
    · rfl

theorem endsAs_looked (s : State) : EndsAs s s.looked := by
  have frame := looked_groups s
  exact ⟨by rw [frame], by rw [frame], by rw [frame], by rw [frame], by rw [frame], grows_looked s⟩

theorem endsAs_withDone (z : State) (c : Command) (status : CommandStatus) (result : CommandResult) :
    EndsAs z (z.withDone c status result) := ⟨rfl, rfl, rfl, rfl, rfl, grows_complete z c status result⟩

theorem EndsAs.trans {u : State} (h : EndsAs s t) (k : EndsAs t u) : EndsAs s u :=
  ⟨k.streams.trans h.streams, k.sched.trans h.sched, k.freePool.trans h.freePool, k.markers.trans h.markers, k.link.trans h.link,
    h.grows.trans k.grows⟩

/-- The state from which an accepted START without a trigger starts frame 0 (R26). -/
def State.runsNow (s : State) : State := { s.afterTaking.acceptStart with link.state := .running }

/-- LINK START without a trigger: frame 0, and then its own record (R26). -/
theorem exec_linkStart_now {r : CommandRecord} (taking : s.Taking) (stopped : s.link.state = .stopped) (untriggered : r.w1.getLsbD 0 = false) :
    exec (.linkStart r) s = .next ((s.runsNow.frameStart 0).withDone (s.taken 0x02 r) .ok .none).looked := by
  have plain : ¬ triggerPresent r = true := ne_true_of_eq_false untriggered
  have stopped' : s.afterTaking.link.state = .stopped := stopped
  have idle : (s.runsNow.frameStart 0).proc.state = .idle := by
    rw [(frameStart_keeps s.runsNow 0).2.2.1]
    exact afterTaking_proc_state s
  have now : s.afterTaking.startNow (s.taken 0x02 r) = (s.runsNow.frameStart 0).endPlain (s.taken 0x02 r) .ok := by
    rw [State.startNow, State.runsNow]
  rw [exec_linkStart_of_taking taking, State.linkStart, if_neg plain, if_pos stopped', now, endPlain_of_idle _ _ _ idle]

theorem startsAs_runsNow (taking : s.Taking) : StartsAs s s.runsNow :=
  ⟨taking.1, rfl, rfl, rfl, rfl, rfl, rfl, .of_comp rfl⟩

/-- The state from which a report that serves the START starts frame 0: the START has completed (R28). -/
def State.servedBy (s : State) (rest : List TriggerReport) : State :=
  ({ s with lines.reports := rest, link.state := .running, link.timeout := none } : State).completeStart .ok

/-- What a report that serves the START leaves after the frame start: the record of a selected edge (R145). -/
def State.edgeReported (z : State) (p : TriggerReport) : State :=
  if z.lines.sense[p.line].select.selects p.edge then z.edgeInFrame p.line p.edge 0 else z

theorem exec_triggerEdgeReport_of_waiting {p : TriggerReport} {rest : List TriggerReport} (reports : s.lines.reports = p :: rest)
    (current : p.current = true) (ready : s.host.engine = .ready) (waiting : s.link.state = .waiting) :
    exec .triggerEdgeReport s = .next (((s.servedBy rest).frameStart 0).edgeReported p) := by
  rw [exec_triggerEdgeReport_of_report reports, State.takeReport, if_pos (by exact ready), if_pos (by exact ⟨waiting, current⟩),
    State.triggerStart, State.edgeReported, State.servedBy]

theorem servedBy_frame (s : State) (rest : List TriggerReport) :
    s.servedBy rest = { s with link := (s.servedBy rest).link, lines.reports := rest, comp := (s.servedBy rest).comp } := by
  unfold State.servedBy
  rw [completeStart_frame]

theorem servedBy_link (s : State) (rest : List TriggerReport) :
    (s.servedBy rest).link = { s.link with state := .running, timeout := none, start := none } := by
  unfold State.servedBy
  rw [completeStart_link]

theorem startsAs_servedBy (ready : s.host.engine = .ready) (rest : List TriggerReport) : StartsAs s (s.servedBy rest) := by
  have frame := servedBy_frame s rest
  have grows : Grows s (s.servedBy rest) := (grows_commandBlind s).completeStart .ok (.of_comp rfl)
  exact ⟨by rw [frame]; exact ready, by rw [frame], by rw [frame], by rw [frame], by rw [frame], by rw [frame],
    by rw [servedBy_link], grows⟩

theorem edgeInFrame_frame (s : State) (k : LineId) (e : Edge) (offset : Nat) :
    s.edgeInFrame k e offset =
      { s with lines.sense := (s.edgeInFrame k e offset).lines.sense, comp := (s.edgeInFrame k e offset).comp } := by
  unfold State.edgeInFrame
  dsimp only
  split
  · rfl
  · rw [State.presentEdge, present_frame]
    rfl

theorem endsAs_edgeReported (z : State) (p : TriggerReport) : EndsAs z (z.edgeReported p) := by
  unfold State.edgeReported
  split
  · have frame := edgeInFrame_frame z p.line p.edge 0
    exact ⟨by rw [frame], by rw [frame], by rw [frame], by rw [frame], by rw [frame],
      (grows_commandBlind z).linkStable.edgeInFrame _ _ _ (.refl z)⟩
  · exact .refl z

theorem exec_frameTimerExpiry_of_running (ready : s.host.engine = .ready) (running : s.link.state = .running)
    (timer : s.link.frameTimer = true) : exec .frameTimerExpiry s = .next (s.frameStart (s.link.frame + 1)) :=
  congrArg Host.Outcome.next (if_pos ⟨ready, running, timer⟩)

/-- Every row that starts a frame starts it from its own state, but for records and the link's run, and adds at most records. -/
theorem frameStarts_exec (starts : FrameStarts s c f) (run : exec c s = .next t) :
    ∃ a, StartsAs s a ∧ EndsAs (a.frameStart f) t := by
  rcases starts with ⟨rfl, ready, running, timer, rfl⟩ | ⟨r, rfl, taking, stopped, untriggered, rfl⟩ |
    ⟨rfl, ready, waiting, rfl, p, rest, reports, current⟩
  · rw [exec_frameTimerExpiry_of_running ready running timer] at run
    have left := Host.Outcome.next.inj run
    subst left
    exact ⟨s, ⟨ready, rfl, rfl, rfl, rfl, rfl, rfl, .refl s⟩, .refl _⟩
  · rw [exec_linkStart_now taking stopped untriggered] at run
    have left := Host.Outcome.next.inj run
    subst left
    exact ⟨s.runsNow, startsAs_runsNow taking, (endsAs_withDone _ _ _ _).trans (endsAs_looked _)⟩
  · rw [exec_triggerEdgeReport_of_waiting reports current ready waiting] at run
    have left := Host.Outcome.next.inj run
    subst left
    exact ⟨s.servedBy rest, startsAs_servedBy ready rest, endsAs_edgeReported _ p⟩

namespace StartsAs
variable (h : StartsAs s a)
include h

theorem stream (i : StreamId) : a.stream i = s.stream i := stream_congr h.streams i

theorem swapsAt (f : FrameNo) : a.swapsAt f = s.swapsAt f := by rw [State.swapsAt, h.sched]; rfl

theorem bankFor (f : FrameNo) : a.bankFor f = s.bankFor f := by rw [State.bankFor, h.swapsAt, h.sched]; rfl

theorem streamFor (f : FrameNo) (i : StreamId) : a.streamFor f i = s.streamFor f i := by
  rw [State.streamFor, h.swapsAt, h.sched, h.stream]
  rfl

end StartsAs

/-! ## The markers (R147) -/

theorem markerActive_iff (s : State) (f : FrameNo) {m : Marker} {b : Binding} {sh : Shape} (bound : m.binding = some b)
    (shape : (s.stream b.stream).shape = some sh) :
    s.markerActive f m = true ↔
      (s.stream b.stream).state = .live ∧ s.sched.active.names b.stream = true
      ∧ (f + BitVec.ofNat 32 b.advance).toNat % sh.period = sh.phase := by
  simp [State.markerActive, bound, shape, Shape.dueIn, and_assoc]

theorem markerActive_of_free (s : State) (f : FrameNo) {m : Marker} (free : m.binding = none) : s.markerActive f m = false := by
  simp [State.markerActive, free]

theorem markersAtFrameStarts : Claims.MarkersAtFrameStarts := by
  intro s t c f m starts run
  obtain ⟨a, begins, ends⟩ := frameStarts_exec starts run
  have markers : t.lines.markers[m] = { s.lines.markers[m] with active := (a.roomFor f).markerActive f s.lines.markers[m] } := by
    have set : (a.frameStart f).lines.markers[m] = { a.lines.markers[m] with active := (a.roomFor f).markerActive f a.lines.markers[m] } := by
      rw [frameStart_lines]
      simp
    have same : t.lines.markers[m] = (a.frameStart f).lines.markers[m] := by rw [ends.markers]
    rw [same, set, begins.markers]
  rw [markers]
  refine ⟨rfl, fun free => ?_, fun b sh bound shape => ?_⟩
  · exact markerActive_of_free (a.roomFor f) f free
  · obtain ⟨state, shape'⟩ := roomFor_state a f b.stream
    rw [begins.stream, shape] at shape'
    refine (markerActive_iff (a.roomFor f) f bound shape').trans ?_
    rw [state, roomFor_active, begins.streamFor, begins.bankFor]

/-! ## The slot words (R106) -/

/-- Settles O25. -/
theorem slotWordsFollowTheTable : Obligations.SlotWordsFollowTheTable := by
  intro s t c f k words banks streams starts config run sent
  obtain ⟨a, begins, ends⟩ := frameStarts_exec starts run
  have composed : words = a.wordsFor f := by
    rw [ends.link, frameStart_link] at sent
    exact (Option.some.inj sent).symm
  have idle : a.link.idleFillWord = k.idleFill := by rw [Link.idleFillWord, begins.config, config]
  have banks' : a.bankFits = s.bankFits := by
    funext b
    have shapes (i : StreamId) : (a.stream i).shape = (s.stream i).shape := by rw [begins.stream]
    exact propext ⟨fun fits => bankFits_congr fits fun i _ => (shapes i).symm, fun fits => bankFits_congr fits fun i _ => shapes i⟩
  have follow := wordsFor_follow (s := a) (f := f) (by rw [banks', begins.sched]; exact banks.2.2.1)
    (fun i sh shape => (streams.2.2.2 i sh (by rw [← begins.stream]; exact shape)).1)
  rw [composed]
  have context : a.streamFor f = s.streamFor f := funext (begins.streamFor f)
  rwa [begins.bankFor, context, idle] at follow

/-! ## The streams that no turn touches -/

/-- A stream that is not LIVE, not named or not due is left as the swap leaves it, but for the turn of a frame that resolves MISSING. -/
theorem frameStart_stream_of_idle
    (stays : a.ret.window.length ≤ 1 ∨ ∀ sh : Shape, (a.stream i).shape = some sh → sh.kind.lane = .outLane)
    (idle : (a.streamFor f i).state ≠ .live ∨ (a.bankFor f).names i = false
      ∨ ∀ sh : Shape, (a.stream i).shape = some sh → sh.kind.lane = .inLane ∨ f.toNat % sh.period ≠ sh.phase) :
    (a.frameStart f).stream i = a.streamFor f i := by
  rw [frameStart_stream, (roomFor_stream a f i).2, sentFor_stream_of_idle idle]
  rwa [sentFor_stream_of_idle idle, streamFor_shape]

theorem otherStreamsKeepTheirState : Claims.OtherStreamsKeepTheirState := by
  intro s t c f i starts run
  obtain ⟨a, begins, ends⟩ := frameStarts_exec starts run
  have window : a.ret.window.length = s.ret.window.length := by rw [begins.ret]
  refine ⟨?_, fun short none => ?_, fun stays idle => ?_⟩
  · rw [ends.freePool, (frameStart_keeps a f).2.2.2, begins.freePool]
  · rw [ends.sched, frameStart_sched, roomFor_sched_of_short (window.trans_le short),
      settledFor_sched_of_no_swap ((begins.swapsAt f).trans none), begins.sched]
  · have out : (s.stream i).isOut = true → ∀ sh : Shape, (a.stream i).shape = some sh → sh.kind.lane = .outLane := by
      intro isOut sh shape
      rw [begins.stream] at shape
      simpa [Stream.isOut, shape] using isOut
    rw [stream_congr ends.streams i, frameStart_stream_of_idle (a := a) (stays.imp (fun h => window.trans_le h) out), begins.streamFor]
    rwa [begins.streamFor, begins.bankFor, begins.stream]

/-! ## The pins (R1, R17, R146, R190) -/

theorem outLaneWords_of_idle (idle : s.link.transmitting = false) : s.outLaneWords = none := by simp [State.outLaneWords, idle]

theorem outLaneWords_of_config {k : LinkConfig} (config : s.link.config = some k) :
    s.outLaneWords = if s.link.transmitting && !decide (k.mode = .internal) then s.link.outFrame else none := by
  rw [State.outLaneWords, isInternal_of_config config]

end

end Sys2Proof.Machine

/-!
The pins (R1, R17, R146, R190): the OUT lane from the frame start to the end of the transmission, the marker pins and the interrupt pin.
-/
namespace Sys2Proof.Machine

section
variable {s : State} {f : FrameNo} {k : LinkConfig}

/-! ## The link after the frames before have made room -/

theorem roomFor_link_of_short (short : s.ret.window.length ≤ 1) :
    (s.roomFor f).link = { s.link with frame := f, frameTimer := true } := by
  rw [roomFor_of_short short, sentFor_link]

/-- The MISSING resolution of the older entry counts as a bad return (R14, R33). -/
theorem roomFor_link_of_long (ready : s.host.engine = .ready) (config : s.link.config = some k) {e : WindowEntry}
    {rest : List WindowEntry} (window : s.ret.window = e :: rest) (more : rest ≠ []) {stops : Bool}
    (stop : stops = beginsFaultStop s k.threshold) :
    (s.roomFor f).link =
      { s.link with
        frame := f
        badRun := min 65535 (s.link.badRun + 1)
        state := if stops then .stopping else s.link.state
        stopCause := if stops then some .returnFault else s.link.stopCause
        frameTimer := !stops } := by
  have link := sentFor_link s f
  have same : stops = beginsFaultStop (s.sentFor f) k.threshold := by rw [stop, beginsFaultStop, beginsFaultStop, link]
  rw [roomFor_of_long window more,
    resolved_link (s := { s.sentFor f with ret.window := rest }) (k := k) (by rw [sentFor_host]; exact ready) (by rw [link]; exact config) e
      .missing [] (stops := stops) (by rw [if_neg (by simp), same]; rfl)]
  dsimp only
  have bad : ¬ Resolution.missing = .good := by simp
  rw [link, if_neg bad]
  cases stops <;> rfl

theorem roomFor_link_config (ready : s.host.engine = .ready) (config : s.link.config = some k) :
    (s.roomFor f).link.config = some k := by
  cases window : s.ret.window with
  | nil => rw [roomFor_link_of_short (by simp [window])]; exact config
  | cons e rest =>
    by_cases more : rest = []
    · rw [roomFor_link_of_short (by simp [window, more])]; exact config
    · rw [roomFor_link_of_long ready config window more rfl]; exact config

theorem wordsFor_length (s : State) (f : FrameNo) : (s.wordsFor f).length = 53 := frameWords_length (composeSlots_length _ _)

theorem wordsFor_number (s : State) (f : FrameNo) : (s.wordsFor f)[0]? = some f := frameWords_number

/-! ## The OUT lane -/

/-- After the end of a transmission no frame is in transmission (R1). -/
theorem endTransmission_transmitting (s : State) : s.endTransmission.link.transmitting = false := by
  have stopped : (({ s with link.transmitting := false } : State).stopWhenDone).link.transmitting = false := by
    rcases stopWhenDone_cases { s with link.transmitting := false } with ⟨-, -, -, done⟩ | ⟨-, stands⟩
    · rw [done, enterStopped_link]
    · rw [stands]
  unfold State.endTransmission
  dsimp only
  split
  · exact stopped
  · unfold Link.stopInFault
    split <;> rfl
  · rfl
  · rfl
  · rfl

theorem enterOff_pins (s : State) (idle : s.link.transmitting = false) :
    s.enterOff.outLaneWords = none ∧ s.enterOff.interruptPinLow = false ∧ ∀ m : MarkerId, s.enterOff.markerPinHigh m = false :=
  ⟨outLaneWords_of_idle idle, rfl, fun m => by simp [State.markerPinHigh, State.enterOff, Marker.reset]⟩

theorem enterResetting_pins (s : State) :
    s.enterResetting.outLaneWords = none ∧ s.enterResetting.interruptPinLow = false
    ∧ ∀ m : MarkerId, s.enterResetting.markerPinHigh m = false :=
  ⟨rfl, rfl, fun m => by simp [State.markerPinHigh, State.enterResetting, State.markersOff]⟩

theorem pinLevels : Claims.PinLevels := by
  refine ⟨fun s k config => ⟨fun sending external => ?lane, fun idle => ?quiet⟩, fun s t c f k starts config run => ?start, fun s => ?ended,
    fun s free engine => ?soft, fun s source levels => ?hard, fun s => ⟨fun m => Iff.rfl, Iff.rfl⟩⟩
  case lane => rw [outLaneWords_of_config config, sending, external]; rfl
  case quiet =>
    rw [outLaneWords_of_config config]
    rcases idle with sent | internal
    · rw [sent]; rfl
    · rw [internal]; simp
  case start =>
    obtain ⟨a, begins, ends⟩ := frameStarts_exec starts run
    have held : (a.roomFor f).link.config = some k := roomFor_link_config begins.engine (begins.config.trans config)
    have config' : t.link.config = some k := by rw [ends.link, frameStart_link]; exact held
    have sending : t.link.transmitting = true := by rw [ends.link, frameStart_link]
    have words : t.link.outFrame = some (a.wordsFor f) := by rw [ends.link, frameStart_link]
    rw [outLaneWords_of_config config', sending, words]
    exact ⟨fun external => ⟨a.wordsFor f, by rw [external]; rfl, wordsFor_length a f, wordsFor_number a f⟩,
      fun internal => by rw [internal]; rfl⟩
  case ended =>
    refine ⟨_, rfl, outLaneWords_of_idle ?_⟩
    split
    · exact endTransmission_transmitting s
    · next idle => simpa using idle
  case soft =>
    refine ⟨s.enterResetting.offWhenQuiet, ?_, ?_⟩
    · exact congrArg Host.Outcome.next ((ifReleased_of_released free _).trans (if_neg engine))
    · unfold State.offWhenQuiet
      split
      · exact enterOff_pins _ rfl
      · exact enterResetting_pins s
  case hard =>
    exact ⟨_, rfl, rfl, rfl, fun m => by simp [State.markerPinHigh, State.reset, Marker.reset]⟩

/-- Settles O27. -/
theorem markersFollowTheirStreams : Obligations.MarkersFollowTheirStreams := ⟨markersAtFrameStarts, pinLevels⟩

end

end Sys2Proof.Machine

/-!
The frame that the timer starts (R2, R8, R14, R23, R24, R33), its generation word (R200), and frame 0 of a run started without a trigger
(R26).
-/
namespace Sys2Proof.Machine

section
variable {s : State} {f : FrameNo} {k : LinkConfig}

/-! ## The words of the next frame -/

theorem isNone_eq_decide {α : Type} [DecidableEq α] (o : Option α) : o.isNone = decide (o = none) := by cases o <;> simp

theorem newGenerationFlag_eq (before : Option Gen) (g : Gen) :
    newGenerationFlag before g = decide (before ≠ none ∧ before ≠ some g) := by
  cases before <;> simp [newGenerationFlag]

/-- The words of the frame, by the run and the arm that making room leaves as they were. -/
theorem wordsFor_next (run : (s.roomFor f).link.runGeneration = s.link.runGeneration)
    (arm : (s.roomFor f).link.corruptOut = s.link.corruptOut) (generation : (s.settledFor f).sched.generation = s.sched.generation)
    (next : f = s.link.frame + 1) : NextFrameWords s (s.wordsFor f) := by
  refine ⟨wordsFor_length s f, by rw [wordsFor_number, next], ?_, ?_⟩
  · have word : s.wordFor f = generationWord s.sched.generation (decide (s.link.runGeneration = none))
        (decide (s.link.runGeneration ≠ none ∧ s.link.runGeneration ≠ some s.sched.generation)) := by
      rw [State.wordFor, run, generation, isNone_eq_decide, newGenerationFlag_eq]
    rw [← word]
    exact frameWords_generation
  · rw [← arm]
    exact goodCheck_frameWords (composeSlots_length _ _)

/-! ## The groups that a frame start leaves -/

theorem framePeriod_of_config (config : s.link.config = some k) : s.link.framePeriod = k.period := by rw [Link.framePeriod, config]

/-- The window after a frame start with room for the frame (R8). -/
theorem frameStart_ret_of_short (short : s.ret.window.length ≤ 1) (config : s.link.config = some k) :
    (s.frameStart f).ret =
      { s.ret with
        window := s.ret.window ++ [{ frame := f, generation := (s.settledFor f).sched.generation, deadline := 2 * k.period }] } := by
  have period : (s.roomFor f).link.framePeriod = k.period :=
    framePeriod_of_config (by rw [roomFor_link_of_short short]; exact config)
  rw [frameStart_ret, State.entryOf, period, roomFor_of_short short, sentFor_ret]

/-- The window after a frame start that finds two entries: the older has left (R8). -/
theorem frameStart_ret_of_two (ready : s.host.engine = .ready) {e1 e2 : WindowEntry} (window : s.ret.window = [e1, e2])
    (config : s.link.config = some k) :
    (s.frameStart f).ret =
      { s.ret with window := [e2, { frame := f, generation := (s.settledFor f).sched.generation, deadline := 2 * k.period }] } := by
  have period : (s.roomFor f).link.framePeriod = k.period := framePeriod_of_config (roomFor_link_config ready config)
  have ret : (s.roomFor f).ret = { s.ret with window := [e2] } := by
    rw [roomFor_of_long window (by simp), resolved_ret]
    dsimp only
    rw [sentFor_ret]
  rw [frameStart_ret, State.entryOf, period, ret]
  rfl

/-- The retiring mark follows the entry that stays (R82). -/
theorem frameStart_sched_of_two {e1 e2 : WindowEntry} (window : s.ret.window = [e1, e2]) :
    (s.frameStart f).sched =
      { (s.settledFor f).sched with
        retiring := (s.settledFor f).sched.retiring && decide (e2.generation = (s.settledFor f).sched.generation - 1) } := by
  rw [frameStart_sched, roomFor_of_long window (by simp), resolved_frame]
  dsimp only
  rw [sentFor_sched, State.windowHolds]
  simp

/-- Of the Completion Unit a frame start without a swap has only added records. -/
theorem recordsGrow_frameStart (ready : s.host.engine = .ready) (room : s.ret.window.length ≤ 1 ∨ ∃ e1 e2, s.ret.window = [e1, e2]) :
    RecordsGrow (s.settledFor f).comp (s.frameStart f).comp := by
  have sent : RecordsGrow (s.settledFor f).comp (s.sentFor f).comp := recordsGrow_of (grows_sentFor s f) (onlyRecords_sentFor s f)
  rw [frameStart_comp]
  rcases room with short | ⟨e1, e2, window⟩
  · rw [roomFor_of_short short]
    exact sent
  · rw [roomFor_of_long window (by simp)]
    exact recordsGrow_trans sent
      (recordsGrow_resolved (s := { s.sentFor f with ret.window := [e2] }) (by rw [sentFor_host]; exact ready) e1 .missing [])

theorem frameStart_sense (s : State) (f : FrameNo) (l : LineId) :
    (s.frameStart f).lines.sense[l] = { s.lines.sense[l] with frameMark := false } := by
  rw [frameStart_lines]
  simp

theorem frameStart_reports (s : State) (f : FrameNo) :
    (s.frameStart f).lines.watch = s.lines.watch ∧ (s.frameStart f).lines.reports = s.lines.reports := by
  rw [frameStart_lines]
  exact ⟨rfl, rfl⟩

theorem swapsAt_of_unarmed (unarmed : s.sched.swapArmed = false) (f : FrameNo) : s.swapsAt f = false := by simp [State.swapsAt, unarmed]

theorem nextFrameStarts : Claims.NextFrameStarts := by
  refine ⟨fun s idle => congrArg Host.Outcome.next (if_neg idle), fun s k ready running timer config unarmed => ?_⟩
  have quiet := swapsAt_of_unarmed unarmed (s.link.frame + 1)
  have sched := settledFor_sched_of_no_swap quiet
  have comp := settledFor_comp_of_no_swap quiet
  have generation : (s.settledFor (s.link.frame + 1)).sched.generation = s.sched.generation := by rw [sched]
  obtain ⟨host, port, proc, pool⟩ := frameStart_keeps s (s.link.frame + 1)
  obtain ⟨watch, reports⟩ := frameStart_reports s (s.link.frame + 1)
  have internal := isInternal_of_config (roomFor_link_config (f := s.link.frame + 1) ready config)
  rw [exec_frameTimerExpiry_of_running ready running timer]
  refine ⟨fun short => ?short, fun e1 e2 window => ?two⟩
  case short =>
    have link := roomFor_link_of_short (f := s.link.frame + 1) short
    refine ⟨_, s.wordsFor (s.link.frame + 1), rfl, wordsFor_next (by rw [link]) (by rw [link]) generation rfl, ?_, ?_, host, port, proc, ?_, pool,
      ?_, watch, reports, frameStart_sense s _⟩
    · rw [frameStart_link, internal, generation, link]
      dsimp only
      rw [timer]
    · rw [frameStart_ret_of_short short config, generation]
    · rw [frameStart_sched, roomFor_sched_of_short short, sched]
    · rw [← comp]
      exact recordsGrow_frameStart ready (.inl short)
  case two =>
    have link := roomFor_link_of_long (f := s.link.frame + 1) ready config window (by simp) rfl
    refine ⟨_, s.wordsFor (s.link.frame + 1), rfl, wordsFor_next (by rw [link]) (by rw [link]) generation rfl, by rw [frameStart_link],
      by rw [frameStart_link, link], by rw [frameStart_link], by rw [frameStart_link], ?_, ?_, host, port, proc, pool, ?_⟩
    · rw [frameStart_ret_of_two ready window config, generation]
    · rw [frameStart_sched_of_two window, sched]
    · rw [← comp]
      exact recordsGrow_frameStart ready (.inr ⟨e1, e2, window⟩)

theorem frameStartCountsTheOlderMissing : Claims.FrameStartCountsTheOlderMissing := by
  intro s k e1 e2 stops ready running timer config window stop
  have link := roomFor_link_of_long (f := s.link.frame + 1) ready config window (by simp) stop
  rw [exec_frameTimerExpiry_of_running ready running timer]
  refine ⟨_, rfl, by rw [frameStart_link, link], fun zero => ?_, by rw [frameStart_link, link, running], by rw [frameStart_link, link],
    by rw [frameStart_link, link], by rw [frameStart_link, link], by rw [frameStart_link], ?_⟩
  · let before : State := { s.sentFor (s.link.frame + 1) with ret.window := [e2] }
    have told : Presented before (before.resolved e1 .missing []) (.linkDegraded e1.frame before.ret.lastStation) :=
      presented_resolved_degraded (s := before) (by rw [sentFor_host]; exact ready) (by rw [sentFor_link]; exact zero) (by simp)
    have station : before.ret.lastStation = s.ret.lastStation := by
      have kept : (s.sentFor (s.link.frame + 1)).ret.lastStation = s.ret.lastStation := by rw [sentFor_ret]
      exact kept
    rw [station] at told
    have sent : Grows s before := ((grows_settledFor s _).trans (grows_sentFor s _)).trans (.of_comp rfl)
    exact told.within sent (grows_resolved before e1 .missing [])
      (.of_comp (by rw [frameStart_comp, roomFor_of_long window (by simp)]))
  · rw [frameStart_ret_of_two ready window config]

/-! ## The generation word (R200) -/

theorem generationWordBits : Claims.GenerationWordBits := by
  intro g first newGeneration
  have one (b : Bool) : flag b = if b then 1 else 0 := by cases b <;> rfl
  have low : g.toNat < 2 ^ 8 := g.isLt
  have second := flag_lt first
  have third := flag_lt newGeneration
  rw [generationWord, ← one, ← one, place_zero, ofNat_or_place (lo := 8) low (by omega)]
  have sum : g.toNat + 2 ^ 8 * flag first < 2 ^ 9 := by omega
  rw [ofNat_or_place (lo := 9) sum (by omega), toNat_ofNat_of_lt (by omega)]

/-- Settles O23. -/
theorem frameTimerStartsNextFrame : Obligations.FrameTimerStartsNextFrame :=
  ⟨nextFrameStarts, frameStartCountsTheOlderMissing, generationWordBits⟩

/-! ## Frame 0 of a run started without a trigger (R26) -/

/-- A completion behind records that have entered fills its reservation. -/
theorem recordsGrow_withDone {a : Completion} {z : State} (h : RecordsGrow a z.comp) (c : Command) (status : CommandStatus)
    (result : CommandResult) : RecordsGrow { a with reservations := a.reservations - 1 } (z.withDone c status result).comp := by
  obtain ⟨⟨new, held⟩, rest⟩ := h
  refine ⟨⟨new ++ [.commandDone c status result], by simp [State.withDone, held]⟩, ?_⟩
  have reservations : z.comp.reservations = a.reservations := by
    have same := congrArg Completion.reservations rest
    exact same
  have fewer := congrArg (fun d : Completion => { d with reservations := a.reservations - 1 }) rest
  simpa [State.withDone, reservations] using fewer

theorem getLast?_withDone (z : State) (c : Command) (status : CommandStatus) (result : CommandResult) :
    (z.withDone c status result).comp.holding.getLast? = some (.commandDone c status result) := by simp [State.withDone]

/-- Settles O20. -/
theorem linkStartRunsAtOnce : Obligations.LinkStartRunsAtOnce := by
  intro s r k taking stopped untriggered config empty unarmed
  have short : s.runsNow.ret.window.length ≤ 1 := by
    have none : s.runsNow.ret.window = [] := empty
    simp [none]
  have quiet : s.runsNow.swapsAt 0 = false := swapsAt_of_unarmed (s := s.runsNow) unarmed 0
  have sched : (s.runsNow.settledFor 0).sched = s.sched := settledFor_sched_of_no_swap quiet
  have config' : s.runsNow.link.config = some k := config
  have ready' : s.runsNow.host.engine = .ready := taking.1
  have link := roomFor_link_of_short (f := 0) short
  have internal := isInternal_of_config (roomFor_link_config (f := 0) ready' config')
  obtain ⟨host, port, proc, pool⟩ := frameStart_keeps s.runsNow 0
  have watch := (frameStart_reports s.runsNow 0).1
  have records : RecordsGrow s.comp (s.runsNow.frameStart 0).comp := by
    have grown := recordsGrow_frameStart (f := 0) ready' (.inl short)
    rwa [settledFor_comp_of_no_swap quiet] at grown
  have word : (s.runsNow.wordsFor 0)[1]? = some (generationWord s.sched.generation true false) := by
    have first : s.runsNow.wordFor 0 = generationWord s.sched.generation true false := by
      rw [State.wordFor, link, sched]
      rfl
    rw [← first]
    exact frameWords_generation
  have linked := frameStart_link s.runsNow 0
  rw [internal, link, sched] at linked
  have returns := frameStart_ret_of_short (f := 0) short config'
  rw [sched] at returns
  have schedule := frameStart_sched s.runsNow 0
  rw [roomFor_sched_of_short short, sched] at schedule
  have row := exec_linkStart_now taking stopped untriggered
  generalize s.runsNow.frameStart 0 = z at *
  refine ⟨z.withDone (s.taken 0x02 r) .ok .none, s.runsNow.wordsFor 0, row, host, port, proc, recordsGrow_withDone records _ _ _, watch,
    getLast?_withDone _ _ _ _, linked, wordsFor_length s.runsNow 0, wordsFor_number s.runsNow 0, word, ?_, schedule, pool⟩
  have none : s.runsNow.ret.window = [] := empty
  rw [none] at returns
  exact returns

end

end Sys2Proof.Machine

/-!
The trigger report that serves the START (R28, R145), and the round start that performs the armed swap (R77 to R79).
-/
namespace Sys2Proof.Machine

section
variable {s z : State} {f : FrameNo} {k : LinkConfig}

/-- A record entered before a step stands there at its end. -/
theorem holding_of_grows {held : List Record} {r : Record} (entered : s.comp.holding = held ++ [r]) (h : Grows s z) :
    z.comp.holding[held.length]? = some r := by
  obtain ⟨new, behind⟩ := h.records
  rw [behind, entered, List.append_assoc, List.getElem?_append_right le_rfl]
  simp

/-! ## The report that serves the START (R28, R145) -/

section
variable {p : TriggerReport} {rest : List TriggerReport}

theorem edgeReported_groups (z : State) (p : TriggerReport) :
    z.edgeReported p = { z with lines.sense := (z.edgeReported p).lines.sense, comp := (z.edgeReported p).comp } := by
  unfold State.edgeReported
  split
  · exact edgeInFrame_frame z p.line p.edge 0
  · rfl

/-- The edge of the report that starts the run is the first of frame 0 on its line (R145). -/
theorem edgeReported_sense (ready : z.host.engine = .ready) (clear : z.lines.sense[p.line].frameMark = false) :
    ((z.edgeReported p).lines.sense[p.line].frameMark = true ↔ edgeSelected z.lines.sense[p.line] p.edge)
    ∧ (edgeSelected z.lines.sense[p.line] p.edge →
        Presented z (z.edgeReported p)
          (.senseEdge p.line p.edge (some (z.link.frame, 0)) z.lines.sense[p.line].suppressed)) := by
  by_cases selected : edgeSelected z.lines.sense[p.line] p.edge
  · have reported : z.edgeReported p =
        (z.setSenseLine p.line { z.lines.sense[p.line] with
          frameMark := true
          suppressed := if z.freePlace then 0 else min 65535 (z.lines.sense[p.line].suppressed + 1) }).afterEvent
          (.senseEdge p.line p.edge (some (z.link.frame, 0)) z.lines.sense[p.line].suppressed) := by
      rw [State.edgeReported, if_pos ((selects_iff _).2 selected)]
      exact edgeInFrame_of_clear ready clear 0
    rw [reported]
    refine ⟨iff_of_true ?_ selected, fun _ => presented_afterEvent (z.setSenseLine p.line _) _⟩
    have lines (u : State) (e : Event) : (u.afterEvent e).lines = u.lines := by
      unfold State.afterEvent
      split <;> rfl
    rw [lines, setSenseLine_same]
  · rw [State.edgeReported, if_neg (mt (selects_iff _).1 selected)]
    exact ⟨iff_of_false (ne_true_of_eq_false clear) selected, fun h => absurd h selected⟩

theorem servedBy_comp {c : Command} (outstanding : s.link.start = some c) (rest : List TriggerReport) :
    (s.servedBy rest).comp.holding = s.comp.holding ++ [.commandDone c .ok .none] := by
  rw [State.servedBy, completeStart_comp, startRecords]
  simp [outstanding, Completion.filled]

/-- Settles O47. -/
theorem triggerStartsTheLink : Obligations.TriggerStartsTheLink := by
  refine ⟨fun s l e micros watched => ?watched, fun s p rest c reports current ready waiting outstanding empty => ?starts,
    fun s p rest reports => ⟨fun ready late selected => ?late, fun idle => ?idle⟩, fun s none => ?none⟩
  case watched => exact exec_senseLineEdge_of_watched watched micros
  case late =>
    rw [exec_triggerEdgeReport_of_report reports]
    exact congrArg Host.Outcome.next (takeReport_of_late (s := { s with lines.reports := rest }) ready late selected)
  case idle =>
    rw [exec_triggerEdgeReport_of_report reports]
    exact congrArg Host.Outcome.next (takeReport_of_idle (s := { s with lines.reports := rest }) idle)
  case none =>
    simp only [exec, execTriggerEdgeReport, none]
  case starts =>
    have begins := startsAs_servedBy ready rest
    have short : (s.servedBy rest).ret.window.length ≤ 1 := by simp [begins.ret, empty]
    have frame := servedBy_frame s rest
    have link := frameStart_link (s.servedBy rest) 0
    rw [roomFor_link_of_short short, servedBy_link] at link
    have window : ((s.servedBy rest).frameStart 0).ret.window.map (·.frame) = [0] := by
      rw [frameStart_ret, roomFor_of_short short, sentFor_ret, begins.ret, empty]
      rfl
    have sense := frameStart_sense (s.servedBy rest) 0 p.line
    have lines := frameStart_reports (s.servedBy rest) 0
    have groups : (s.servedBy rest).host = s.host ∧ (s.servedBy rest).port = s.port ∧ (s.servedBy rest).proc = s.proc
        ∧ (s.servedBy rest).freePool = s.freePool ∧ (s.servedBy rest).lines = { s.lines with reports := rest } := by
      rw [frame]
      exact ⟨rfl, rfl, rfl, rfl, rfl⟩
    have keeps := frameStart_keeps (s.servedBy rest) 0
    have grows := grows_frameStart (s.servedBy rest) 0
    have row := exec_triggerEdgeReport_of_waiting reports current ready waiting
    rw [groups.1, groups.2.1, groups.2.2.1, groups.2.2.2.1] at keeps
    rw [groups.2.2.2.2] at sense lines
    generalize (s.servedBy rest).frameStart 0 = z at *
    have ready' : z.host.engine = .ready := by rw [keeps.1]; exact ready
    have clear : z.lines.sense[p.line].frameMark = false := by rw [sense]
    have same (e : Edge) : edgeSelected z.lines.sense[p.line] e ↔ edgeSelected s.lines.sense[p.line] e := by rw [sense]; exact Iff.rfl
    have count : z.lines.sense[p.line].suppressed = s.lines.sense[p.line].suppressed := by rw [sense]
    have number : z.link.frame = 0 := by rw [link]
    obtain ⟨mark, told⟩ := edgeReported_sense (p := p) ready' clear
    rw [same] at mark told
    rw [number, count] at told
    have last := endsAs_edgeReported z p
    have after := edgeReported_groups z p
    refine ⟨z.edgeReported p, row, by rw [last.link, link], by rw [last.link, link], by rw [last.link, link], by rw [last.link, link],
      by rw [last.link, link], by rw [last.link, link], ?_, ?_, ?_, ?_, ?_, ?_,
      holding_of_grows (servedBy_comp outstanding rest) (grows.trans last.grows), ?_, mark,
      fun selected => (told selected).within (begins.grows.trans grows) last.grows (.refl _)⟩
    · rw [after]; exact lines.2
    · rw [after]; exact keeps.1
    · rw [after]; exact keeps.2.1
    · rw [after]; exact keeps.2.2.1
    · rw [after]; exact keeps.2.2.2
    · rw [after]; exact lines.1
    · rw [after]; exact window

end

/-! ## The round start that performs the armed swap (R77 to R79) -/

/-- The COMMIT's record is the first of the step (R78). -/
theorem settledFor_comp_of_swap {c : Command} (swaps : s.swapsAt f = true) (outstanding : s.sched.commit = some c) :
    (s.settledFor f).comp = s.comp.filled [.commandDone c .ok (.swapped (s.sched.generation + 1) (some f))] := by
  obtain ⟨armed, round⟩ := swapsAt_iff.1 swaps
  rw [State.settledFor, State.settleBank, if_pos round, performArmedSwap_comp, swapRecords, if_pos (by exact armed)]
  simp [outstanding]

/-- A stream OPEN that the new active bank names becomes LIVE, an out-stream with its run cleared (R39). -/
theorem moved_of_opened {c : Stream} (opened : c.state = .opened) :
    c.moved true = { c with
      state := .live, runFlag := if c.isOut then false else c.runFlag, runCount := if c.isOut then 0 else c.runCount } := by
  simp [Stream.moved, opened]

theorem moved_of_live {c : Stream} (live : c.state = .live) (named : Bool) :
    c.moved named = if named then c else { c with state := .opened } := by
  simp [Stream.moved, live]

theorem moved_of_standing {c : Stream} {named : Bool}
    (stands : c.state = .faulted ∨ c.state = .quiescing ∨ c.state = .closed ∨ (c.state = .opened ∧ named = false)) : c.moved named = c := by
  rcases stands with state | state | state | ⟨state, unnamed⟩
  · simp [Stream.moved, state]
  · simp [Stream.moved, state]
  · simp [Stream.moved, state]
  · simp [Stream.moved, state, unnamed]

/-- Settles O24. -/
theorem roundStartPerformsArmedSwap : Obligations.RoundStartPerformsArmedSwap := by
  intro s c k f ready running timer next round armed outstanding config run short
  have swaps : s.swapsAt f = true := swapsAt_iff.2 ⟨armed, round⟩
  have bank : s.bankFor f = s.sched.pending := by rw [State.bankFor, if_pos swaps]
  have moves (i : StreamId) : s.streamFor f i = (s.stream i).moved (s.sched.pending.names i) := by rw [State.streamFor, if_pos swaps]
  have sched := settledFor_sched_of_swap swaps
  have comp := settledFor_comp_of_swap swaps outstanding
  have link := roomFor_link_of_short (f := f) short
  obtain ⟨host, port, proc, pool⟩ := frameStart_keeps s f
  have still {i : StreamId} (idle : (s.streamFor f i).state ≠ .live) : (s.frameStart f).stream i = s.streamFor f i :=
    frameStart_stream_of_idle (.inl short) (.inl idle)
  rw [exec_frameTimerExpiry_of_running ready running timer, ← next]
  refine ⟨_, s.wordsFor f, rfl, ?sched, ?first, ?records, host, port, proc, pool, by rw [frameStart_link], ?word, ?window, ?slots,
    fun i => ⟨fun opened named => ?opens, fun live named => ?stays, fun live unnamed => ?leaves, fun stands => ?stands,
      fun sh opened named shape => ⟨fun lane => ?inLane, fun lane later => ?outLane⟩⟩⟩
  case sched => rw [frameStart_sched, roomFor_sched_of_short short, sched]
  case first =>
    have entered : (s.settledFor f).comp.holding = s.comp.holding ++ [.commandDone c .ok (.swapped (s.sched.generation + 1) (some f))] := by
      rw [comp]
      rfl
    exact holding_of_grows entered (((grows_sentFor s f).trans (grows_roomFor s f)).trans (.of_comp (frameStart_comp s f)))
  case records =>
    have filled : RecordsGrow { s.comp with reservations := s.comp.reservations - 1 } (s.settledFor f).comp := by
      rw [comp]
      exact ⟨⟨_, rfl⟩, rfl⟩
    exact recordsGrow_trans filled (recordsGrow_frameStart ready (.inl short))
  case word =>
    have generation : s.wordFor f = generationWord (s.sched.generation + 1) false true := by
      have changed : newGenerationFlag (some s.sched.generation) (s.sched.generation + 1) = true := by
        simp [newGenerationFlag]
      rw [State.wordFor, link, sched]
      dsimp only [State.scheduleSwapped]
      rw [run, changed]
      rfl
    rw [← generation]
    exact frameWords_generation
  case window =>
    rw [frameStart_ret_of_short short config, sched, List.map_append]
    rfl
  case slots =>
    intro banks streams
    have follow := wordsFor_follow (f := f) banks.2.2.1 fun i sh shape => (streams.2.2.2 i sh shape).1
    rwa [bank, Link.idleFillWord, config] at follow
  case opens =>
    rw [frameStart_stream, (roomFor_state s f i).1, moves, named, moved_of_opened opened]
  case stays =>
    rw [frameStart_stream, (roomFor_state s f i).1, moves, named, moved_of_live live]
    exact live
  case leaves =>
    have moved := moves i
    rw [unnamed, moved_of_live live] at moved
    rw [still (by rw [moved]; simp), moved]
    rfl
  case stands =>
    have moved := (moves i).trans (moved_of_standing stands)
    rw [still ?_, moved]
    rw [moved]
    rcases stands with state | state | state | ⟨state, -⟩ <;> rw [state] <;> simp
  case inLane =>
    have moved := moves i
    rw [named, moved_of_opened opened] at moved
    rw [frameStart_stream_of_idle (.inl short) (.inr (.inr fun sh' shape' => .inl (by rw [shape] at shape'; cases shape'; exact lane))), moved]
    simp [Stream.isOut, shape, lane]
  case outLane =>
    have moved := moves i
    rw [named, moved_of_opened opened] at moved
    rw [frameStart_stream_of_idle (.inl short) (.inr (.inr fun sh' shape' => .inr (by rw [shape] at shape'; cases shape'; exact later))), moved]
    simp [Stream.isOut, shape, lane]

end

end Sys2Proof.Machine

/-!
The turns of the out-streams at a frame start (R106 to R109, R113, R115, R93 to R96): samples, runs and their events, and the blocks that a
turn moves, finishes and retires.
-/
namespace Sys2Proof.Machine

/-! ## The turn of one stream within the frame start -/

section
variable {s t u : State} {c : Instr} {f : FrameNo} {i : StreamId} {x : Stream} {sh : Shape}

/-- An out-stream's turn alone changes it, and finds it as the swap of the frame start left it. -/
theorem turn_of_frameStarts (starts : FrameStarts s c f) (run : exec c s = .next t) (context : x = s.streamFor f i)
    (shape : x.shape = some sh) (lane : sh.kind.lane = .outLane) :
    ∃ u : State, u.stream i = x ∧ u.sched.active = s.bankFor f ∧ u.host.engine = .ready ∧ Grows s u
      ∧ Grows (outStreamTurn f u i) t ∧ t.stream i = (outStreamTurn f u i).stream i := by
  obtain ⟨a, begins, ends⟩ := frameStarts_exec starts run
  obtain ⟨u, found, sched, host, before, after, turn⟩ := sentFor_turn a f i
  have sent : ((a.sentFor f).stream i).shape = some sh := by rw [turn, stream_outStreamTurn, found, begins.streamFor, ← context, shape]
  have stays : (a.roomFor f).stream i = (a.sentFor f).stream i :=
    (roomFor_stream a f i).2 (.inr fun sh' shape' => by rw [sent] at shape'; cases shape'; exact lane)
  refine ⟨u, by rw [found, begins.streamFor, context], by rw [sched, settledFor_active, begins.bankFor], by rw [host]; exact begins.engine,
    begins.grows.trans before, ?_, ?_⟩
  · exact after.trans ((grows_roomFor a f).trans ((Grows.of_comp (frameStart_comp a f)).trans ends.grows))
  · rw [stream_congr ends.streams i, frameStart_stream, stays, turn]

/-- A turn's samples leave staging as its stream's last samples; its list is as the samples leave it (R107, R115). -/
def Stream.turnTaken (c : Stream) (sh : Shape) (f : FrameNo) : Stream :=
  { c with
    samples := c.samples.drop sh.channels
    lastSamples := (c.samples.take sh.channels).map fun y => some y.value
    list := assignSamples f (c.samples.take sh.channels) c.list
    runFlag := false
    runCount := 0 }

/-- The record of a run that a turn ends. -/
def resumedRecords (i : StreamId) (c : Stream) (f : FrameNo) : List Record :=
  if c.runFlag then [.event (.streamResumed i f c.runCount)] else []

/-- A good turn presents STREAM_RESUMED for a run that it ends, and then its finished blocks retire (R107, R113). -/
theorem goodTurn_eq (ready : u.host.engine = .ready) (own : u.stream i = x) (sh : Shape) (f : FrameNo) :
    ∃ v : State, u.goodTurn i sh f = retireHeads 2 i v ∧ v.stream i = x.turnTaken sh f ∧ Grows u v
      ∧ (x.runFlag = true → Presented u v (.streamResumed i f x.runCount))
      ∧ (u.placesInUse < 32 → v.comp.holding = u.comp.holding ++ resumedRecords i x f) := by
  subst own
  have row : u.goodTurn i sh f =
      retireHeads 2 i ((if (u.stream i).runFlag then u.present (.streamResumed i f (u.stream i).runCount) else u).setStream i
        ((u.stream i).turnTaken sh f)) := rfl
  refine ⟨_, row, stream_setStream_self _ _ _, ?_, fun resumes => ?_, fun free => ?_⟩
  · split
    · exact Grows.trans (grows_present u _) (.of_comp rfl)
    · exact .of_comp rfl
  · rw [if_pos resumes]
    exact (presented_present ready _).within (.refl u) (grows_present u _) (.of_comp rfl)
  · have place : u.freePlace = true := decide_eq_true free
    cases flag : (u.stream i).runFlag
    · simp [State.setStream, resumedRecords, flag]
    · simp [State.setStream, resumedRecords, flag, present_of_ready ready, State.afterEvent, place]

/-- Retirements of a stream that is not drained leave its cursor (R104, R129). -/
theorem retireHeads_cursor (n : Nat) : ∀ {u : State}, (u.stream i).drained = false →
    ((retireHeads n i u).stream i).cursor = (u.stream i).cursor := by
  induction n with
  | zero => exact fun _ => rfl
  | succ n ih =>
    intro u drained
    have popped : (u.stream i).popHead.drained = false := drained
    unfold retireHeads
    split
    · rfl
    · split
      · rfl
      · split
        · split
          · rw [ih (by rw [State.retireReporting, stream_setStream_self]; exact popped), State.retireReporting, stream_setStream_self,
              popHead_cursor_of_not_drained drained]
          · rfl
        · rw [ih (by rw [State.retireSilently, stream_setStream_self]; exact popped), State.retireSilently, stream_setStream_self,
            popHead_cursor_of_not_drained drained]

/-- A LIVE stream is not drained (R51, R54). -/
theorem drained_of_live (streams : StreamsInv s) (context : x = s.streamFor f i) (live : x.state = .live) : x.drained = false := by
  obtain ⟨-, -, drained, -⟩ := streams
  by_contra set
  have same : x.drained = (s.stream i).drained := by rw [context, streamFor_eq]
  have quiescing := (drained i (by rw [← same]; simpa using set)).1
  have stands : x.state = .quiescing := by
    rw [context, State.streamFor]
    split
    · rw [moved_of_standing (.inr (.inl quiescing)), quiescing]
    · exact quiescing
  rw [live] at stands
  cases stands

theorem dueStreamTakesItsTurn : Claims.DueStreamTakesItsTurn := by
  intro s t c f i x sh streams starts run context shape lane named due
  obtain ⟨u, own, active, ready, before, after, turn⟩ := turn_of_frameStarts starts run context shape lane
  have shape' : (u.stream i).shape = some sh := by rw [own, shape]
  have named' : u.sched.active.names i = true := by rw [active]; exact named
  refine ⟨fun live staged => ?good, fun live short => ?underrun, fun other => ?idle⟩
  case good =>
    have good : outStreamTurn f u i = u.goodTurn i sh f := by
      rw [outStreamTurn_of_due shape' lane named' due (by rw [own]; exact live), if_pos (by rw [own]; exact staged)]
    obtain ⟨v, eq, taken, grows, told, -⟩ := goodTurn_eq ready own sh f
    rw [good, eq] at turn after
    have drained : (v.stream i).drained = false := by
      have undrained := drained_of_live streams context live
      rw [taken]
      exact undrained
    have cursor : ((retireHeads 2 i v).stream i).cursor = x.cursor := by
      rw [retireHeads_cursor 2 drained, taken]
      rfl
    refine ⟨?_, fun resumes => (told resumes).within before grows ((grows_retireHeads 2 i v).trans after)⟩
    have retired := stream_retireHeads 2 i i v
    rw [cursor, taken] at retired
    rw [turn]
    exact retired
  case underrun =>
    have underrun : outStreamTurn f u i = u.underrunTurn i f := by
      rw [outStreamTurn_of_due shape' lane named' due (by rw [own]; exact live), if_neg (by rw [own]; exact Nat.not_le.2 short)]
    rw [underrun] at turn after
    cases flag : x.runFlag
    · have first : u.underrunTurn i f = (u.setStream i { x with runFlag := true, runCount := 1 }).present (.streamStarved i f) := by
        rw [State.underrunTurn, own]
        exact if_neg (by simp [flag])
      rw [first] at turn after
      refine ⟨by rw [turn, present_stream, stream_setStream_self]; rfl, fun _ => ?_⟩
      have told : Presented (u.setStream i { x with runFlag := true, runCount := 1 }) _ (.streamStarved i f) :=
        presented_present (s := u.setStream i { x with runFlag := true, runCount := 1 }) ready _
      have starved : Grows s (u.setStream i { x with runFlag := true, runCount := 1 }) := before.trans (.of_comp rfl)
      exact told.within starved (grows_present _ _) after
    · have later : u.underrunTurn i f = u.setStream i { x with runCount := countUp x.runCount } := by
        rw [State.underrunTurn, own]
        exact if_pos flag
      rw [later] at turn
      have counted (n : Nat) : ({ x with runCount := n } : Stream) = { x with runFlag := true, runCount := n } := by rw [← flag]
      refine ⟨?_, fun none => by simp at none⟩
      rw [turn, stream_setStream_self, countUp_eq_min, counted]
      rfl
  case idle =>
    rw [turn, outStreamTurn_of_idle (.inl (by rw [own]; exact other)), own]

/-! ## Samples assigned to blocks (R115) -/

/-- No sample of these ends a block. -/
def Unmarked (l : List Sample) : Prop := ∀ y ∈ l, y.blockEnd = false

variable {e : Entry} {rest : List Entry}

theorem sentFrom_sent (e : Entry) (n : Nat) (f : FrameNo) (y : Sample) :
    (sentFrom e n f).sent f y = { sentFrom e (n + 1) f with finished := if y.blockEnd then some .complete else none } := by
  unfold sentFrom Entry.sent
  by_cases none : n = 0
  · simp [none]
  · simp [none, Nat.add_assoc]

theorem assignSamples_nil (f : FrameNo) (l : List Sample) : assignSamples f l [] = [] := by
  induction l with
  | nil => rfl
  | cons y l ih => exact ih

/-- Samples pass over a block that is finished. -/
theorem assignSamples_of_finished {a : BlockStatus} (finished : e.finished = some a) (l : List Sample) :
    ∀ rest, assignSamples f l (e :: rest) = e :: assignSamples f l rest := by
  induction l with
  | nil => exact fun _ => rfl
  | cons y l ih =>
    intro rest
    have step : assignSample f y (e :: rest) = e :: assignSample f y rest := by rw [assignSample, finished]
    calc assignSamples f (y :: l) (e :: rest) = assignSamples f l (assignSample f y (e :: rest)) := rfl
      _ = e :: assignSamples f l (assignSample f y rest) := by rw [step, ih]

theorem assignSample_of_clear (clear : e.finished = none) (y : Sample) : assignSample f y (e :: rest) = e.sent f y :: rest := by
  rw [assignSample, clear]

theorem sentFrom_finished (e : Entry) (n : Nat) (f : FrameNo) : (sentFrom e n f).finished = e.finished := by
  unfold sentFrom
  split <;> rfl

/-- Samples that end no block are all the head's. -/
theorem assignSamples_of_unmarked (clear : e.finished = none) (l : List Sample) : ∀ n, Unmarked l →
    assignSamples f l (sentFrom e n f :: rest) = sentFrom e (n + l.length) f :: rest := by
  induction l with
  | nil => exact fun _ _ => rfl
  | cons y l ih =>
    intro n unmarked
    have step : assignSample f y (sentFrom e n f :: rest) = sentFrom e (n + 1) f :: rest := by
      have same : ({ sentFrom e (n + 1) f with finished := none } : Entry) = sentFrom e (n + 1) f := by
        have kept := sentFrom_finished e (n + 1) f
        rw [clear] at kept
        rw [← kept]
      rw [assignSample_of_clear ((sentFrom_finished e n f).trans clear), sentFrom_sent, unmarked y (by simp), if_neg (by simp), same]
    calc assignSamples f (y :: l) (sentFrom e n f :: rest) = assignSamples f l (assignSample f y (sentFrom e n f :: rest)) := rfl
      _ = sentFrom e (n + (y :: l).length) f :: rest := by
        rw [step, ih (n + 1) fun z mem => unmarked z (List.mem_cons_of_mem y mem), List.length_cons, Nat.add_assoc, Nat.add_comm 1]

/-- The head finished COMPLETE with the sample at place `n` of those given. -/
def finishedAt (e : Entry) (n : Nat) (f : FrameNo) : Entry := { sentFrom e (n + 1) f with finished := some .complete }

/-- The first block-end sample finishes the head, and those behind it pass to the entries behind it. -/
theorem assignSamples_of_marked (clear : e.finished = none) {l l' : List Sample} {y : Sample} (unmarked : Unmarked l)
    (marked : y.blockEnd = true) :
    assignSamples f (l ++ y :: l') (e :: rest) = finishedAt e l.length f :: assignSamples f l' rest := by
  have start : sentFrom e 0 f = e := if_pos rfl
  have head := assignSamples_of_unmarked (f := f) (rest := rest) clear l 0 unmarked
  rw [start, Nat.zero_add] at head
  have last : assignSample f y (sentFrom e l.length f :: rest) = finishedAt e l.length f :: rest := by
    rw [assignSample_of_clear ((sentFrom_finished e _ f).trans clear), sentFrom_sent, marked, if_pos rfl]
    rfl
  calc assignSamples f (l ++ y :: l') (e :: rest)
      = assignSamples f l' (assignSample f y (assignSamples f l (e :: rest))) := by simp [assignSamples]
    _ = finishedAt e l.length f :: assignSamples f l' rest := by rw [head, last, assignSamples_of_finished rfl]

theorem assignSamples_all_unmarked (clear : e.finished = none) {l : List Sample} (unmarked : Unmarked l) :
    assignSamples f l (e :: rest) = sentFrom e l.length f :: rest := by
  have all := assignSamples_of_unmarked (f := f) (rest := rest) clear l 0 unmarked
  rw [Nat.zero_add] at all
  exact all

/-! ## The marks of a turn -/

/-- A stretch of the turn in which no place is marked. -/
theorem unmarked_of_places {places : List Nat} (marks : TurnEndsAt x sh places) {a b : Nat}
    (clear : ∀ m, a ≤ m → m < a + b → m ∉ places) : Unmarked (((x.samples.take sh.channels).drop a).take b) := by
  intro y mem
  obtain ⟨k, here⟩ := List.mem_iff_getElem?.1 mem
  rw [List.getElem?_take] at here
  split at here
  · next inside =>
    rw [List.getElem?_drop, List.getElem?_take] at here
    split at here
    · next within_ =>
      have absent := clear (a + k) (by omega) (by omega)
      exact Bool.eq_false_iff.2 fun marked => absent ((marks (a + k) y within_ here).1 marked)
    · cases here
  · cases here

/-- The turn around one of its places. -/
theorem turn_around (staged : sh.channels ≤ x.samples.length) {a n : Nat} (from_ : a ≤ n) (inside : n < sh.channels) :
    ∃ y, x.samples[n]? = some y
      ∧ (x.samples.take sh.channels).drop a =
        ((x.samples.take sh.channels).drop a).take (n - a) ++ y :: (x.samples.take sh.channels).drop (n + 1) := by
  have here : n < (x.samples.take sh.channels).length := by rw [List.length_take]; omega
  refine ⟨(x.samples.take sh.channels)[n], ?_, ?_⟩
  · rw [← List.getElem?_take_of_lt inside]
    exact List.getElem?_eq_getElem here
  · have split := (List.take_append_drop (n - a) ((x.samples.take sh.channels).drop a)).symm
    rw [List.drop_drop, Nat.add_sub_cancel' from_, List.drop_eq_getElem_cons here] at split
    exact split

/-- A turn with no block-end sample. -/
theorem assigned_of_no_mark (staged : sh.channels ≤ x.samples.length) (marks : TurnEndsAt x sh []) (clear : e.finished = none) :
    assignSamples f (x.samples.take sh.channels) (e :: rest) = sentFrom e sh.channels f :: rest := by
  have unmarked := unmarked_of_places marks (a := 0) (b := sh.channels) (fun _ _ _ => by simp)
  rw [List.drop_zero, List.take_take, min_self] at unmarked
  rw [assignSamples_all_unmarked clear unmarked, List.length_take, min_eq_left staged]

/-- A turn whose first block-end sample is at place `n`. -/
theorem assigned_of_first_mark (staged : sh.channels ≤ x.samples.length) {places : List Nat} (marks : TurnEndsAt x sh places) {n : Nat}
    (inside : n < sh.channels) (here : n ∈ places) (first : ∀ m ∈ places, n ≤ m) (clear : e.finished = none) :
    assignSamples f (x.samples.take sh.channels) (e :: rest) =
      finishedAt e n f :: assignSamples f ((x.samples.take sh.channels).drop (n + 1)) rest := by
  obtain ⟨y, sample, split⟩ := turn_around staged (Nat.zero_le n) inside
  have unmarked := unmarked_of_places marks (a := 0) (b := n) (fun m _ below mem => by have := first m mem; omega)
  rw [List.drop_zero] at split unmarked
  rw [Nat.sub_zero] at split
  rw [split, assignSamples_of_marked clear unmarked ((marks n y inside sample).2 here), ← split, List.length_take, List.length_take,
    min_eq_left staged, min_eq_left (by omega)]

/-- The samples behind the only block-end sample are the next entry's. -/
theorem assigned_behind_mark (staged : sh.channels ≤ x.samples.length) {n : Nat} (marks : TurnEndsAt x sh [n]) (clear : e.finished = none) :
    assignSamples f ((x.samples.take sh.channels).drop (n + 1)) (e :: rest) = sentFrom e (sh.channels - n - 1) f :: rest := by
  have unmarked := unmarked_of_places marks (a := n + 1) (b := sh.channels) (fun m above _ mem => by
    rw [List.mem_singleton.1 mem] at above
    omega)
  rw [List.take_of_length_le (by rw [List.length_drop, List.length_take]; omega)] at unmarked
  rw [assignSamples_all_unmarked clear unmarked, List.length_drop, List.length_take, min_eq_left staged, Nat.sub_sub]

/-- The samples behind the first of two block-end samples finish the next entry. -/
theorem assigned_of_second_mark (staged : sh.channels ≤ x.samples.length) {n m : Nat} (marks : TurnEndsAt x sh [n, m]) (order : n < m)
    (inside : m < sh.channels) (clear : e.finished = none) :
    assignSamples f ((x.samples.take sh.channels).drop (n + 1)) [e] = [finishedAt e (m - n - 1) f] := by
  obtain ⟨y, sample, split⟩ := turn_around staged (a := n + 1) order inside
  have unmarked := unmarked_of_places marks (a := n + 1) (b := m - (n + 1)) (fun k above below mem => by
    simp only [List.mem_cons, List.not_mem_nil, or_false] at mem
    omega)
  have length : (((x.samples.take sh.channels).drop (n + 1)).take (m - (n + 1))).length = m - n - 1 := by
    rw [List.length_take, List.length_drop, List.length_take]
    omega
  rw [split, assignSamples_of_marked clear unmarked ((marks m y inside sample).2 (by simp)), length, assignSamples_nil]

end

end Sys2Proof.Machine

/-!
The blocks of a good turn (R93 to R96, R115): those that it finishes retire head first, each with its record where it must report and a
place is free, and wait where none is.
-/
namespace Sys2Proof.Machine

section
variable {s t v : State} {c : Instr} {f : FrameNo} {i : StreamId} {x d : Stream} {sh : Shape} {e e1 e2 : Entry} {rest : List Entry}

/-- The record of a head that retires COMPLETE. -/
def headRecords (i : StreamId) (ringSize : Nat) (e : Entry) : List Record :=
  if e.report then [.blockDone (blockDoneOf i ringSize e .complete)] else []

/-- A finished head retires, with its record where it must report, or must report and finds no place (R94, R96). -/
theorem retireHeads_step (own : v.stream i = d) (list : d.list = e :: rest) (finished : e.finished = some .complete)
    (drained : d.drained = false) (n : Nat) :
    (e.report = true ∧ 32 ≤ v.placesInUse ∧ retireHeads (n + 1) i v = v)
    ∨ ∃ w : State, retireHeads (n + 1) i v = retireHeads n i w
        ∧ w.stream i = { d with list := rest, retire := (d.retire + 1) % d.ringSize }
        ∧ w.comp.holding = v.comp.holding ++ headRecords i d.ringSize e ∧ Grows v w ∧ (32 ≤ v.placesInUse → e.report = false) := by
  subst own
  have popped : (v.stream i).popHead = { v.stream i with list := rest, retire := ((v.stream i).retire + 1) % (v.stream i).ringSize } := by
    have cursor : (v.stream i).cursorOver (v.stream i).list.tail = (v.stream i).cursor := by simp [Stream.cursorOver, drained]
    rw [Stream.popHead, cursor, list]
    rfl
  have reports : producesRecord (v.stream i) e .complete = e.report := by simp [producesRecord, drained]
  cases report : e.report
  · refine .inr ⟨v.retireSilently i, retireHeads_of_silent list finished (reports.trans report) n, ?_, ?_, .of_comp rfl, fun _ => rfl⟩
    · rw [State.retireSilently, stream_setStream_self, popped]
    · simp [State.retireSilently, State.setStream, headRecords, report]
  · by_cases free : v.placesInUse < 32
    · refine .inr ⟨v.retireReporting i e .complete, retireHeads_of_reporting list finished (reports.trans report) free n, ?_, ?_, ?_,
        fun full => absurd free (Nat.not_lt.2 full)⟩
      · rw [State.retireReporting, stream_setStream_self, popped]
      · simp [State.retireReporting, State.setStream, State.enter, headRecords, report]
      · exact .of_holding (new := [.blockDone (blockDoneOf i (v.stream i).ringSize e .complete)]) rfl (Nat.le_add_right _ _) rfl
    · exact .inl ⟨rfl, Nat.not_lt.1 free, retireHeads_of_waiting list finished (reports.trans report) free (n + 1)⟩

/-- The record of a block whose last sample frame `f` sent (R95). -/
theorem headRecords_finishedAt (size : Nat) (count : 1 ≤ e.count) (n : Nat) :
    headRecords i size (finishedAt e n f) = if e.report then [.blockDone (outBlockDone i size e f)] else [] := by
  have positive : e.count ≠ 0 := by omega
  have record : blockDoneOf i size (finishedAt e n f) .complete = outBlockDone i size e f := by
    simp [blockDoneOf, outBlockDone, finishedAt, sentFrom, Entry.doneAs, Entry.frames, positive]
  have report : (finishedAt e n f).report = e.report := by simp [finishedAt, sentFrom]
  rw [headRecords, record, report]

theorem finishedAt_report (e : Entry) (n : Nat) (f : FrameNo) : (finishedAt e n f).report = e.report := by simp [finishedAt, sentFrom]

/-! ## The turn in the step -/

/-- The state in which the samples of a good turn are assigned and the finished blocks are about to retire. -/
theorem goodTurn_of_takes (takes : TakesGoodTurn s t c f i x sh) :
    ∃ v : State, v.stream i = x.turnTaken sh f ∧ Grows s v ∧ Grows (retireHeads 2 i v) t
      ∧ t.stream i = (retireHeads 2 i v).stream i
      ∧ (t.placesInUse < 32 → ∃ before, v.comp.holding = s.comp.holding ++ before ++ resumedRecords i x f) := by
  obtain ⟨-, starts, run, context, shape, lane, named, due, live, -, staged, -⟩ := takes
  obtain ⟨u, own, active, ready, before, after, turn⟩ := turn_of_frameStarts starts run context shape lane
  have good : outStreamTurn f u i = u.goodTurn i sh f := by
    rw [outStreamTurn_of_due (by rw [own, shape]) lane (by rw [active]; exact named) due (by rw [own]; exact live),
      if_pos (by rw [own]; exact staged)]
  obtain ⟨v, eq, taken, grows, -, resumed⟩ := goodTurn_eq ready own sh f
  rw [good, eq] at turn after
  have later : Grows u t := grows.trans ((grows_retireHeads 2 i v).trans after)
  refine ⟨v, taken, before.trans grows, after, turn, fun free => ?_⟩
  obtain ⟨records, held⟩ := before.records
  exact ⟨records, by rw [resumed (later.places.trans_lt free), held]⟩

/-- The records that retire with the turn stand right behind that of the run which it ends. -/
theorem turnReports_of_retired {w : State} {records : List Record}
    (resumed : ∃ before, v.comp.holding = s.comp.holding ++ before ++ resumedRecords i x f)
    (retired : w.comp.holding = v.comp.holding ++ records) (after : Grows w t) : TurnReports s t i x f records := by
  obtain ⟨before, held⟩ := resumed
  obtain ⟨behind, last⟩ := after.records
  exact ⟨before, behind, by rw [last, retired, held]; rfl⟩

theorem ringSize_turnTaken (shape : x.shape = some sh) : (x.turnTaken sh f).ringSize = sh.ringSize := ringSize_of_shape shape

/-! ## One block-end sample at most -/

theorem goodTurnMovesBlocks : Claims.GoodTurnMovesBlocks := by
  intro s t c f i x sh e rest takes list clear
  obtain ⟨v, taken, before, after, turn, resumed⟩ := goodTurn_of_takes takes
  obtain ⟨-, -, -, -, shape, -, -, -, -, -, staged, drained⟩ := takes
  have size : (x.turnTaken sh f).ringSize = sh.ringSize := ringSize_turnTaken shape
  refine ⟨fun marks => ?_, fun n others inside marks unfinished count other => ?_⟩
  · have assigned : (x.turnTaken sh f).list = sentFrom e sh.channels f :: rest := by
      rw [Stream.turnTaken, list]
      exact assigned_of_no_mark staged marks clear
    have stands : retireHeads 2 i v = v :=
      retireHeads_of_unfinished (by rw [taken]; exact assigned) ((sentFrom_finished e sh.channels f).trans clear) 2
    rw [turn, stands, taken]
    exact ⟨assigned, rfl⟩
  · have assigned : (x.turnTaken sh f).list = finishedAt e n f :: others := by
      rw [Stream.turnTaken, list, other]
      dsimp only
      rw [assigned_of_first_mark staged marks inside (by simp) (by simp) clear]
      cases rest with
      | nil => rw [assignSamples_nil]
      | cons e2 l => rw [assigned_behind_mark staged marks (unfinished e2 (by simp))]
    have quiet : ∀ y ∈ others, y.finished = none := by
      intro y mem
      rw [other] at mem
      cases rest with
      | nil => cases mem
      | cons e2 l =>
        rcases List.mem_cons.1 mem with rfl | behind
        · rw [sentFrom_finished]
          exact unfinished e2 (by simp)
        · exact unfinished y (List.mem_cons_of_mem e2 behind)
    have step := retireHeads_step taken assigned rfl drained 1
    rw [size, headRecords_finishedAt sh.ringSize count, finishedAt_report] at step
    have retires {w : State} (eq : retireHeads 2 i v = retireHeads 1 i w)
        (context : w.stream i = { x.turnTaken sh f with list := others, retire := (x.retire + 1) % sh.ringSize }) :
        retireHeads 2 i v = w := by
      rw [eq]
      exact retireHeads_of_all_unfinished (fun y mem => quiet y (by rw [context] at mem; exact mem)) 1
    refine ⟨fun silent => ?silent, fun reports free => ?reports, fun reports full => ?waits⟩
    case silent =>
      rcases step with ⟨reports, -⟩ | ⟨w, eq, context, -, -, -⟩
      · simp [silent] at reports
      · rw [turn, retires eq context, context]
        exact ⟨rfl, rfl⟩
    case reports =>
      rcases step with ⟨-, full, eq⟩ | ⟨w, eq, context, records, -, -⟩
      · rw [eq] at after
        exact absurd (after.places.trans_lt free) (Nat.not_lt.2 full)
      · rw [retires eq context] at turn after
        rw [reports, if_pos rfl] at records
        rw [turn, context]
        exact ⟨rfl, rfl, turnReports_of_retired (resumed free) records after⟩
    case waits =>
      rcases step with ⟨-, -, eq⟩ | ⟨w, -, -, -, -, silent⟩
      · rw [turn, eq, taken]
        exact ⟨assigned, rfl⟩
      · have quiet := silent (full.trans before.places)
        simp [reports] at quiet

/-! ## Two block-end samples -/

theorem goodTurnEndsTwoBlocks : Claims.GoodTurnEndsTwoBlocks := by
  intro s t c f i x sh e1 e2 done1 done2 n m first second takes list clear1 clear2 count1 count2 order inside marks is1 is2 records1 records2
  obtain ⟨v, taken, before, after, turn, resumed⟩ := goodTurn_of_takes takes
  obtain ⟨-, -, -, -, shape, -, -, -, -, -, staged, drained⟩ := takes
  have size : (x.turnTaken sh f).ringSize = sh.ringSize := ringSize_turnTaken shape
  have last : m - n - 1 + 1 = m - n := by omega
  have same1 : finishedAt e1 n f = done1 := is1.symm
  have same2 : finishedAt e2 (m - n - 1) f = done2 := by rw [is2, finishedAt, last]
  have assigned : (x.turnTaken sh f).list = [done1, done2] := by
    rw [Stream.turnTaken, list, ← same1, ← same2]
    dsimp only
    rw [assigned_of_first_mark staged marks (order.trans inside) (by simp) (fun k mem => by simp at mem; omega) clear1,
      assigned_of_second_mark staged marks order inside clear2]
  have head1 : headRecords i sh.ringSize done1 = first := by rw [← same1, headRecords_finishedAt _ count1, records1]
  have head2 : headRecords i sh.ringSize done2 = second := by rw [← same2, headRecords_finishedAt _ count2, records2]
  have report1 : done1.report = e1.report := by rw [← same1, finishedAt_report]
  have report2 : done2.report = e2.report := by rw [← same2, finishedAt_report]
  have step1 := retireHeads_step taken assigned (by rw [is1]) drained 1
  rw [size, head1, report1] at step1
  rcases step1 with ⟨reports1, full1, eq1⟩ | ⟨w, eq1, context1, held1, grows1, silent1⟩
  · rw [eq1] at turn after
    have full : 32 ≤ t.placesInUse := full1.trans after.places
    refine ⟨.inr (.inr ⟨reports1, full, by rw [turn, taken]; exact assigned, by rw [turn, taken]; rfl⟩),
      fun free => absurd free (Nat.not_lt.2 full), fun _ => ⟨fun _ => by rw [turn, taken]; exact assigned, fun quiet => ?_⟩⟩
    simp [reports1] at quiet
  · have step2 := retireHeads_step context1 rfl (by rw [is2]) drained 0
    have size1 : ({ x.turnTaken sh f with list := [done2], retire := ((x.turnTaken sh f).retire + 1) % sh.ringSize } : Stream).ringSize
        = sh.ringSize := size
    rw [size1, head2, report2] at step2
    have quiet1 (full : 32 ≤ s.placesInUse) : e1.report = false := silent1 (full.trans before.places)
    rcases step2 with ⟨reports2, full2, eq2⟩ | ⟨z, eq2, context2, held2, grows2, silent2⟩
    · rw [eq1, eq2] at turn after
      have full : 32 ≤ t.placesInUse := full2.trans after.places
      have entered : ∀ r ∈ first, r ∈ t.comp.holding := by
        intro r mem
        obtain ⟨behind, held⟩ := after.records
        rw [held, held1]
        simp [mem]
      refine ⟨.inr (.inl ⟨reports2, full, by rw [turn, context1], by rw [turn, context1]; rfl, entered⟩),
        fun free => absurd free (Nat.not_lt.2 full), fun before32 => ⟨fun reports1 => ?_, fun _ _ => by rw [turn, context1]⟩⟩
      simp [quiet1 before32] at reports1
    · have done : retireHeads 0 i z = z := rfl
      rw [eq1, eq2, done] at turn after
      have held : z.comp.holding = v.comp.holding ++ (first ++ second) := by rw [held2, held1, List.append_assoc]
      have entered : ∀ r ∈ first ++ second, r ∈ t.comp.holding := by
        intro r mem
        obtain ⟨behind, last⟩ := after.records
        rw [last, held]
        rcases List.mem_append.1 mem with h | h <;> simp [h]
      have retired : (t.stream i).retire = (x.retire + 2) % sh.ringSize := by
        rw [turn, context2]
        exact Nat.mod_add_mod (x.retire + 1) sh.ringSize 1
      refine ⟨.inl ⟨by rw [turn, context2], retired, entered⟩, fun free => turnReports_of_retired (resumed free) held after,
        fun full => ⟨fun reports1 => ?_, fun _ reports2 => ?_⟩⟩
      · simp [quiet1 full] at reports1
      · have quiet2 := silent2 ((full.trans before.places).trans grows1.places)
        simp [reports2] at quiet2

/-! ## Behind a head that waits -/

theorem goodTurnBehindWaitingHead : Claims.GoodTurnBehindWaitingHead := by
  intro s t c f i x sh e1 e2 a takes list finished reports clear full
  obtain ⟨v, taken, before, after, turn, -⟩ := goodTurn_of_takes takes
  obtain ⟨-, -, -, -, -, -, -, -, -, -, staged, -⟩ := takes
  have assigned : (x.turnTaken sh f).list = e1 :: assignSamples f (x.samples.take sh.channels) [e2] := by
    rw [Stream.turnTaken, list]
    exact assignSamples_of_finished finished _ _
  have waits : retireHeads 2 i v = v :=
    retireHeads_of_waiting (by rw [taken]; exact assigned) finished (producesRecord_iff.2 (reports.imp_right .inl))
      (Nat.not_lt.2 (full.trans before.places)) 2
  rw [turn, waits, taken, assigned]
  refine ⟨rfl, fun marks => ?_, fun n inside marks => ?_⟩
  · rw [assigned_of_no_mark staged marks clear]
  · rw [assigned_of_first_mark staged marks inside (by simp) (by simp) clear, assignSamples_nil]
    rfl

end

/-- Settles O26. -/
theorem outStreamTurns : Obligations.OutStreamTurns :=
  ⟨dueStreamTakesItsTurn, goodTurnMovesBlocks, goodTurnEndsTwoBlocks, goodTurnBehindWaitingHead, otherStreamsKeepTheirState⟩

end Sys2Proof.Machine

/-!
The turn that a resolution gives an in-stream (R120 to R124): its elements, what it does in staging, and what the entry to STOPPED and the
swap leave of it.
-/
namespace Sys2Proof.Machine

section
variable {s t u v w : State} {b : Bank} {i : StreamId} {sh : Shape} {mode : TagMode} {e e' : WindowEntry} {f : FrameNo} {g : Gen}
  {r : Resolution} {words : List Word} {turn : List Element} {c d : Stream}

/-! ## The elements of a turn (R121) -/

/-- A placement of a bank that keeps the rules is the only one of its stream and channel. -/
theorem slotOf_of_mem (fits : s.bankFits b) {p : Placement} (mem : p ∈ b) :
    b.slotOf p.lane p.stream p.channel.val = some p.slot := by
  obtain ⟨-, pairs, -⟩ := fits
  have symm : Std.Symm s.placementsAgree := ⟨fun _ _ agree => placementsAgree_symm s agree⟩
  have found : ∃ q, b.find? (fun q => decide (q.lane = p.lane ∧ q.stream = p.stream ∧ q.channel.val = p.channel.val)) = some q := by
    rw [← Option.isSome_iff_exists, List.find?_isSome]
    exact ⟨p, mem, by simp⟩
  obtain ⟨q, here⟩ := found
  have same : q.lane = p.lane ∧ q.stream = p.stream ∧ q.channel.val = p.channel.val := by simpa using List.find?_some here
  obtain ⟨-, stream, channel⟩ := same
  have single : q = p := by
    by_contra apart
    obtain ⟨different, -⟩ := pairs.forall (List.mem_of_find?_eq_some here) mem apart
    exact different (by rw [stream, Fin.ext channel])
  rw [Bank.slotOf, here, single]
  rfl

/-- The bank of a generation keeps the rules. -/
theorem bankFits_bankOf (banks : BanksInv s) (g : Gen) : s.bankFits (s.bankOf g) := by
  obtain ⟨-, -, fits, -⟩ := banks
  unfold State.bankOf
  split
  · exact fits _ (active_mem_banks _)
  · split
    · exact fits _ (pending_mem_banks _)
    · exact ⟨fun p mem => by simp at mem, .nil, fun _ _ => by simp [Bank.onSlot]⟩

/-- The bank places each channel of the stream on an IN slot. -/
def Places (b : Bank) (i : StreamId) (sh : Shape) : Prop :=
  ∀ n : Nat, n < sh.channels → ∃ p ∈ b, p.lane = .inLane ∧ p.stream = i ∧ p.channel.val = n

/-- The element of channel `n` of a turn. -/
def turnElement (b : Bank) (i : StreamId) (sh : Shape) (mode : TagMode) (f : FrameNo) (r : Resolution) (words : List Word) (seq n : Nat) :
    Element where
  value := (elementOf mode sh.fillWord r words seq ((b.slotOf .inLane i n).getD 0)).2
  channel := n
  condition := (elementOf mode sh.fillWord r words seq ((b.slotOf .inLane i n).getD 0)).1
  frame := f

/-- A turn has one element per channel, in channel order. -/
theorem buildTurn_eq (places : Places b i sh) (mode : TagMode) (f : FrameNo) (r : Resolution) (words : List Word) (seq : Nat) :
    buildTurn b i sh mode f r words seq = (List.range sh.channels).map (turnElement b i sh mode f r words seq) := by
  rw [buildTurn, ← List.filterMap_eq_map]
  refine List.filterMap_congr fun n mem => ?_
  obtain ⟨p, held, lane, stream, channel⟩ := places n (List.mem_range.1 mem)
  have placed : (b.slotOf .inLane i n).isSome = true := by
    rw [Bank.slotOf, Option.isSome_map, List.find?_isSome]
    exact ⟨p, held, by simp [lane, stream, channel]⟩
  obtain ⟨k, slot⟩ := Option.isSome_iff_exists.1 placed
  simp [turnElement, slot]

theorem buildTurn_length (places : Places b i sh) (seq : Nat) : (buildTurn b i sh mode f r words seq).length = sh.channels := by
  rw [buildTurn_eq places, List.length_map, List.length_range]

/-- A frame that resolves MISSING gives elements of the fill word alone. -/
theorem buildTurn_missing (places : Places b i sh) (mode : TagMode) (f : FrameNo) (words : List Word) (seq : Nat) :
    buildTurn b i sh mode f .missing words seq = missingTurn sh f := by
  rw [buildTurn_eq places]
  rfl

/-- How a return of 53 words resolves its frame. -/
def returnResolution (good : Prop) [Decidable good] : Resolution := if good then .good else .damaged

theorem returnSlotWord_of_whole (whole : words.length = 53) (seq : Nat) (k : SlotId) :
    returnSlotWord words seq k = words.getD (4 + k.val) 0 := by
  have inside : 4 + k.val < words.length := by
    have := k.isLt
    omega
  rw [returnSlotWord, List.getD_eq_getElem?_getD, List.getElem?_eq_getElem inside]
  rfl

/-- The element of a placement's channel is the one that the statements describe. -/
theorem turnElement_of_placement {good : Prop} [Decidable good] (whole : words.length = 53) {p : Placement}
    (slot : b.slotOf .inLane i p.channel.val = some p.slot) (seq : Nat) :
    turnElement b i sh mode f (returnResolution good) words seq p.channel.val = returnedElement sh mode words good f p := by
  by_cases check : good
  · simp [turnElement, returnedElement, returnResolution, elementOf, slot, check, returnSlotWord_of_whole whole]
  · cases mode <;> simp [turnElement, returnedElement, returnResolution, elementOf, slot, check, returnSlotWord_of_whole whole]

theorem isReturnedTurn_buildTurn {good : Prop} [Decidable good] (banks : BanksInv s) (whole : words.length = 53)
    (has : HasInTurn s i sh mode e) (seq : Nat) :
    IsReturnedTurn s i sh mode e words good (buildTurn (s.bankOf e.generation) i sh mode e.frame (returnResolution good) words seq) := by
  obtain ⟨shape, kind, -, -, places⟩ := has
  have fits := bankFits_bankOf banks e.generation
  refine ⟨buildTurn_length places seq, fun p mem stream => ?_⟩
  have placement := fits.1 p mem
  rw [State.placementFits, stream, shape] at placement
  obtain ⟨lane, channel⟩ := placement
  rw [kind] at lane
  have slot := slotOf_of_mem fits mem
  rw [← lane, stream] at slot
  rw [buildTurn_eq places, List.getElem?_map, List.getElem?_range channel, Option.map_some, turnElement_of_placement whole slot]

/-! ## The turn in staging (R123, R124) -/

/-- What the turn of frame `f` comes to in the step: OPEN or LIVE, the stream stages it where it fits, which ends an overrun run, and loses
and counts it where it does not; FAULTED or QUIESCING, it is left as it stands. -/
def TurnTaken (s t : State) (i : StreamId) (sh : Shape) (f : FrameNo) (turn : List Element) : Prop :=
  ((s.stream i).state = .opened ∨ (s.stream i).state = .live →
    (s.stream i).stagedWords + sh.kind.wordsPerElement * sh.channels ≤ sh.depth →
    (t.stream i).elements = (s.stream i).elements ++ turn
    ∧ (t.stream i).runFlag = false ∧ (t.stream i).runCount = 0
    ∧ ((s.stream i).runFlag = true → Presented s t (.streamRecovered i f (s.stream i).runCount)))
  ∧ ((s.stream i).state = .opened ∨ (s.stream i).state = .live →
    sh.depth < (s.stream i).stagedWords + sh.kind.wordsPerElement * sh.channels →
    (t.stream i).elements = (s.stream i).elements ∧ (t.stream i).runFlag = true
    ∧ (t.stream i).runCount = (if (s.stream i).runFlag then min 65535 ((s.stream i).runCount + 1) else 1)
    ∧ ((s.stream i).runFlag = false → Presented s t (.streamOverrun i f)))
  ∧ ((s.stream i).state = .faulted ∨ (s.stream i).state = .quiescing → t.stream i = s.stream i)

/-- A turn that the stream takes in OPEN or LIVE. -/
theorem takeInTurn_taken (ready : s.host.engine = .ready) (issues : (s.stream i).mayIssue = true) (length : turn.length = sh.channels) :
    TurnTaken s (s.takeInTurn i sh f turn) i sh f turn := by
  refine ⟨fun _ fits => ?_, fun _ full => ?_, fun stands => ?_⟩
  · have row : s.takeInTurn i sh f turn =
        (if (s.stream i).runFlag then s.present (.streamRecovered i f (s.stream i).runCount) else s).setStream i
          { s.stream i with elements := (s.stream i).elements ++ turn, runFlag := false, runCount := 0 } :=
      if_pos (by rw [length]; exact fits)
    rw [row, stream_setStream_self]
    refine ⟨rfl, rfl, rfl, fun runs => ?_⟩
    rw [if_pos runs]
    exact (presented_present ready _).within (.refl s) (grows_present s _) (.of_comp rfl)
  · have lost : ¬ (s.stream i).stagedWords + sh.kind.wordsPerElement * turn.length ≤ sh.depth := by
      rw [length]
      exact Nat.not_le.2 full
    cases flag : (s.stream i).runFlag
    · have row : s.takeInTurn i sh f turn =
          (s.setStream i { s.stream i with runFlag := true, runCount := 1 }).present (.streamOverrun i f) :=
        (if_neg lost).trans (if_neg (ne_true_of_eq_false flag))
      rw [row, present_stream, stream_setStream_self]
      have told : Presented (s.setStream i { s.stream i with runFlag := true, runCount := 1 }) _ (.streamOverrun i f) :=
        presented_present (s := s.setStream i { s.stream i with runFlag := true, runCount := 1 }) ready _
      have counted : Grows s (s.setStream i { s.stream i with runFlag := true, runCount := 1 }) := .of_comp rfl
      exact ⟨rfl, rfl, rfl, fun _ => told.within counted (grows_present _ _) (.refl _)⟩
    · have row : s.takeInTurn i sh f turn = s.setStream i { s.stream i with runCount := countUp (s.stream i).runCount } :=
        (if_neg lost).trans (if_pos flag)
      rw [row, stream_setStream_self]
      exact ⟨rfl, flag, countUp_eq_min _, fun quiet => by cases quiet⟩
  · rw [not_mayIssue stands] at issues
    cases issues

/-- The turn of a stream that the bank names as due (R120). -/
theorem inStreamTurn_taken (ready : s.host.engine = .ready) (shape : (s.stream i).shape = some sh) (kind : sh.kind = .inStream mode)
    (named : b.names i = true) (due : f.toNat % sh.period = sh.phase) (places : Places b i sh) :
    TurnTaken s (inStreamTurn b f r words s i) i sh f (buildTurn b i sh mode f r words s.freeSeq) := by
  have now : sh.dueIn f = true := decide_eq_true due
  rw [inStreamTurn_of_in shape kind, named, now]
  cases issues : (s.stream i).mayIssue
  · have standing (issuing : (s.stream i).state = .opened ∨ (s.stream i).state = .live) : False := by
      rw [mayIssue_iff.2 issuing] at issues
      cases issues
    exact ⟨fun issuing => (standing issuing).elim, fun issuing => (standing issuing).elim, fun _ => rfl⟩
  · exact takeInTurn_taken ready issues (buildTurn_length places _)

/-! ## The state in which a swap may leave an in-stream -/

/-- The stream moved as a swap moves an in-stream: its state alone, between OPEN and LIVE. -/
def MovedBySwap (c d : Stream) : Prop :=
  d = { c with state := d.state } ∧ d.mayIssue = c.mayIssue ∧ (c.mayIssue = false → d = c)

theorem MovedBySwap.refl (c : Stream) : MovedBySwap c c := ⟨rfl, rfl, fun _ => rfl⟩

theorem movedBySwap_moved (into : c.isOut = false) (named : Bool) : MovedBySwap c (c.moved named) := by
  cases state : c.state with
  | closed => rw [moved_of_standing (.inr (.inr (.inl state)))]; exact .refl c
  | faulted => rw [moved_of_standing (.inl state)]; exact .refl c
  | quiescing => rw [moved_of_standing (.inr (.inl state))]; exact .refl c
  | opened =>
    cases named
    · rw [moved_of_standing (.inr (.inr (.inr ⟨state, rfl⟩)))]
      exact .refl c
    · have issues : c.mayIssue = true := mayIssue_iff.2 (.inl state)
      rw [moved_of_opened state, into]
      exact ⟨rfl, issues.symm ▸ mayIssue_iff.2 (.inr rfl), fun stands => by rw [issues] at stands; cases stands⟩
  | live =>
    have issues : c.mayIssue = true := mayIssue_iff.2 (.inr state)
    rw [moved_of_live state]
    cases named
    · exact ⟨rfl, issues.symm ▸ mayIssue_iff.2 (.inl rfl), fun stands => by rw [issues] at stands; cases stands⟩
    · exact .refl c

theorem isOut_of_in (shape : c.shape = some sh) (kind : sh.kind = .inStream mode) : c.isOut = false := by
  simp [Stream.isOut, shape, kind, StreamKind.lane]

theorem movedBySwap_streamFor (into : (s.stream i).isOut = false) (f : FrameNo) : MovedBySwap (s.stream i) (s.streamFor f i) := by
  unfold State.streamFor
  split
  · exact movedBySwap_moved into _
  · exact .refl _

theorem movedBySwap_stopWhenDone (ready : s.host.engine = .ready) (into : (s.stream i).isOut = false) :
    MovedBySwap (s.stream i) (s.stopWhenDone.stream i) := by
  rcases stopWhenDone_cases s with ⟨-, -, -, stopped⟩ | ⟨-, stands⟩
  · obtain ⟨-, -, -, -, -, -, -, -, -, -, -, -, streams⟩ := stoppedEntered_enterStopped ready .cancelled
    rw [stopped, streams]
    split
    · exact movedBySwap_moved into _
    · exact .refl _
  · rw [stands]
    exact .refl _

/-- The turn in a longer step, in which a swap may move the stream before and after it. -/
theorem TurnTaken.within (taken : TurnTaken u v i sh f turn) (before : Grows s u) (first : MovedBySwap (s.stream i) (u.stream i))
    (step : Grows u v) (after : Grows v t) (last : MovedBySwap (v.stream i) (t.stream i)) : TurnTaken s t i sh f turn := by
  obtain ⟨fits, lost, stands⟩ := taken
  obtain ⟨moved, issues, stays⟩ := first
  obtain ⟨left, issues', stays'⟩ := last
  have told {e : Event} (h : Presented u v e) : Presented s t e := h.within before step after
  have opens (issuing : (s.stream i).state = .opened ∨ (s.stream i).state = .live) :
      (u.stream i).state = .opened ∨ (u.stream i).state = .live := mayIssue_iff.1 (issues.trans (mayIssue_iff.2 issuing))
  have words : (u.stream i).stagedWords = (s.stream i).stagedWords := by rw [moved]; rfl
  have elements : (u.stream i).elements = (s.stream i).elements := by rw [moved]
  have flag : (u.stream i).runFlag = (s.stream i).runFlag := by rw [moved]
  have count : (u.stream i).runCount = (s.stream i).runCount := by rw [moved]
  have elements' : (t.stream i).elements = (v.stream i).elements := by rw [left]
  have flag' : (t.stream i).runFlag = (v.stream i).runFlag := by rw [left]
  have count' : (t.stream i).runCount = (v.stream i).runCount := by rw [left]
  rw [words, elements, flag, count] at fits lost
  refine ⟨fun issuing room => ?_, fun issuing full => ?_, fun standing => ?_⟩
  · obtain ⟨staged, quiet, zero, recovered⟩ := fits (opens issuing) room
    exact ⟨elements'.trans staged, flag'.trans quiet, count'.trans zero, fun runs => told (recovered runs)⟩
  · obtain ⟨kept, runs, counted, overrun⟩ := lost (opens issuing) full
    exact ⟨elements'.trans kept, flag'.trans runs, count'.trans counted, fun quiet => told (overrun quiet)⟩
  · have idle := not_mayIssue standing
    have same := stays idle
    have kept : v.stream i = s.stream i := (stands (by rw [same]; exact standing)).trans same
    exact (stays' (by rw [kept]; exact idle)).trans kept

/-! ## The turn in a resolution (R13, R120) -/

theorem names_of_hasInTurn (has : HasInTurn s i sh mode e) : (s.bankOf e.generation).names i = true := by
  obtain ⟨-, -, positive, -, places⟩ := has
  obtain ⟨p, mem, -, stream, -⟩ := places 0 positive
  exact (names_iff _ _).2 ⟨p, mem, stream⟩

theorem foldl_inStreamTurn_host (b : Bank) (f : FrameNo) (r : Resolution) (words : List Word) (s : State) (l : List StreamId) :
    (l.foldl (inStreamTurn b f r words) s).host = s.host := by rw [inTurns_frame]

/-- The turns of a resolution hold that of the stream. -/
theorem turned_taken (ready : s.host.engine = .ready) (has : HasInTurn s i sh mode e) (r : Resolution) (words : List Word) :
    ∃ seq, TurnTaken s (s.turned e r words) i sh e.frame (buildTurn (s.bankOf e.generation) i sh mode e.frame r words seq) := by
  have named := names_of_hasInTurn has
  obtain ⟨shape, kind, -, due, places⟩ := has
  obtain ⟨before, after, order, found, left⟩ :=
    foldl_at_stream (g := inStreamTurn (s.bankOf e.generation) e.frame r words) (stream_inStreamTurn_of_ne _ _ _ _) s i
  rw [turned_eq]
  have grew : Grows s (before.foldl (inStreamTurn (s.bankOf e.generation) e.frame r words) s) := grows_foldl (grows_inStreamTurn _ _ _ _) _ _
  have host := foldl_inStreamTurn_host (s.bankOf e.generation) e.frame r words s before
  generalize before.foldl (inStreamTurn (s.bankOf e.generation) e.frame r words) s = u at *
  have taken := inStreamTurn_taken (r := r) (words := words) (by rw [host]; exact ready) (found ▸ shape) kind named due places
  refine ⟨u.freeSeq, taken.within grew (by rw [found]; exact .refl _) (grows_inStreamTurn _ _ _ _ u i) ?_ ?_⟩
  · rw [order]
    exact grows_foldl (grows_inStreamTurn _ _ _ _) _ _
  · rw [left]
    exact .refl _

/-- A stream that the bank does not name, or that is not due, has no turn (R120). -/
theorem turned_stream_of_idle (shape : (s.stream i).shape = some sh) (kind : sh.kind = .inStream mode)
    (idle : e.frame.toNat % sh.period ≠ sh.phase ∨ (s.bankOf e.generation).names i = false) (r : Resolution) (words : List Word) :
    (s.turned e r words).stream i = s.stream i := by
  obtain ⟨before, after, -, found, left⟩ :=
    foldl_at_stream (g := inStreamTurn (s.bankOf e.generation) e.frame r words) (stream_inStreamTurn_of_ne _ _ _ _) s i
  rw [turned_eq, left]
  generalize before.foldl (inStreamTurn (s.bankOf e.generation) e.frame r words) s = u at found
  rw [inStreamTurn_of_in (found ▸ shape) kind, if_neg, found]
  rcases idle with later | unnamed
  · simp [Shape.dueIn, later]
  · simp [unnamed]

/-- What the turns leave of an in-stream but for its elements and run. -/
theorem turned_keeps (s : State) (e : WindowEntry) (r : Resolution) (words : List Word) (i : StreamId) :
    ((s.turned e r words).stream i).state = (s.stream i).state ∧ ((s.turned e r words).stream i).shape = (s.stream i).shape
    ∧ ((s.turned e r words).stream i).samples = (s.stream i).samples := by
  have moved := (turned_stream s e r words i).1
  have state := congrArg Stream.state moved
  have shape := congrArg Stream.shape moved
  have samples := congrArg Stream.samples moved
  exact ⟨state, shape, samples⟩

/-- The run and its events come after the turns. -/
theorem grows_resolved_of_turned (s : State) (e : WindowEntry) (r : Resolution) (words : List Word) :
    Grows (s.turned e r words) (s.resolved e r words) := (grows_healed _ e.frame r).trans (.of_comp (by rw [State.resolved]))

theorem grows_resolve (s : State) (e : WindowEntry) (r : Resolution) (words : List Word) : Grows s (s.resolve e r words) := by
  rw [resolve_eq]
  exact (grows_resolved s e r words).trans (grows_stopWhenDone _)

/-- What becomes of an in-stream behind the turns of a resolution. -/
theorem movedBySwap_resolve (ready : s.host.engine = .ready) (shape : (s.stream i).shape = some sh) (kind : sh.kind = .inStream mode)
    (e : WindowEntry) (r : Resolution) (words : List Word) :
    MovedBySwap ((s.turned e r words).stream i) ((s.resolve e r words).stream i) := by
  obtain ⟨-, kept, -⟩ := turned_keeps s e r words i
  have shape' : ((s.turned e r words).stream i).shape = some sh := kept.trans shape
  have same := resolved_stream s e r words i
  rw [resolve_eq, ← same]
  exact movedBySwap_stopWhenDone (by rw [resolved_host]; exact ready) (isOut_of_in (by rw [same]; exact shape') kind)

/-- A resolution gives an in-stream that is due its turn. -/
theorem resolve_taken (ready : s.host.engine = .ready) (has : HasInTurn s i sh mode e) (r : Resolution) (words : List Word) :
    ∃ seq, TurnTaken s (s.resolve e r words) i sh e.frame (buildTurn (s.bankOf e.generation) i sh mode e.frame r words seq) := by
  obtain ⟨seq, taken⟩ := turned_taken ready has r words
  obtain ⟨shape, kind, -⟩ := has
  refine ⟨seq, taken.within (.refl s) (.refl _) (grows_turned s e r words) ?_ (movedBySwap_resolve ready shape kind e r words)⟩
  rw [resolve_eq]
  exact (grows_resolved_of_turned s e r words).trans (grows_stopWhenDone _)

end

end Sys2Proof.Machine

/-!
The rows that resolve a window entry and the in-streams' turns that they give: returns, deadlines and frame starts (R9 to R11, R17, R120).
-/
namespace Sys2Proof.Machine

section
variable {s t u : State} {i : StreamId} {sh : Shape} {mode : TagMode} {e e' : WindowEntry} {f : FrameNo} {g : Gen} {words : List Word}
  {a : Instr} {rest : List WindowEntry}

/-- A MISSING frame's turn is its elements of the fill word. -/
theorem missingTurnTaken_of_taken (has : HasInTurn s i sh mode e) {seq : Nat}
    (taken : TurnTaken u t i sh e.frame (buildTurn (s.bankOf e.generation) i sh mode e.frame .missing words seq)) :
    MissingTurnTaken u t i sh e.frame := by
  obtain ⟨-, -, -, -, places⟩ := has
  rw [buildTurn_missing places] at taken
  exact taken

/-! ## Deadlines (R9) -/

theorem missingFrameGivesInStreamTurn : Claims.MissingFrameGivesInStreamTurn := by
  intro s e rest i sh mode ready state window has
  have row : exec .deadlineExpiry s = .next (({ s with ret.window := rest } : State).resolve e .missing []) :=
    congrArg Host.Outcome.next ((if_pos ((takesArrivals_iff s).2 ⟨ready, state⟩)).trans (resolveOldestMissing_eq window))
  have has' : HasInTurn { s with ret.window := rest } i sh mode e := has
  obtain ⟨seq, taken⟩ := resolve_taken (s := { s with ret.window := rest }) ready has' .missing []
  have missing := missingTurnTaken_of_taken has' taken
  exact ⟨_, row, TurnTaken.within missing (.of_comp rfl) (.refl _) (grows_resolve _ _ _ _) (.refl _) (.refl _)⟩

/-! ## Returns (R10, R11, R17) -/

/-- A return of 53 words resolves through the entry of its frame, good or damaged as its check says. -/
theorem takeReturn_of_answers {good : Prop} [Decidable good] (whole : words.length = 53)
    (check : good ↔ words[52]? = some (checkWord (words.take 52))) (number : words[0]? = some f) (answers : s.awaits f = true) :
    ∃ station seq, s.takeReturn words false =
      { resolveThrough s.ret.window.length f (returnResolution good) words { s with ret.lastStation := station } with freeSeq := seq } := by
  have passes : PassesCheck words false ↔ good := ⟨fun h => check.2 h.2.2, fun h => ⟨whole, rfl, check.1 h⟩⟩
  by_cases h : good
  · obtain ⟨station, stn⟩ : ∃ station, words[1]? = some station := ⟨_, List.getElem?_eq_getElem (by omega)⟩
    have resolution : returnResolution good = .good := if_pos h
    rw [takeReturn_of_good (passes.2 h) number stn answers, resolution]
    refine ⟨station, (resolveThrough s.ret.window.length f .good words { s with ret.lastStation := station }).freeSeq, ?_⟩
    generalize resolveThrough s.ret.window.length f .good words { s with ret.lastStation := station } = u
    rfl
  · have resolution : returnResolution good = .damaged := if_neg h
    have head : words.head? = some f := by rw [List.head?_eq_getElem?, number]
    rw [takeReturn_of_damaged (mt passes.1 h) head answers, resolution]
    exact ⟨s.ret.lastStation, _, rfl⟩

/-- A return, from the stations or looped, that answers an entry: what is resolved is the state as it stands, but for the mark of the
looped return and the station word. -/
theorem exec_of_returnComes {good : Prop} [Decidable good] (comes : ReturnComes s a words) (whole : words.length = 53)
    (check : good ↔ words[52]? = some (checkWord (words.take 52))) (number : words[0]? = some f) (answers : s.awaits f = true) :
    ∃ (made : State) (seq : Nat),
      exec a s = .next { resolveThrough made.ret.window.length f (returnResolution good) words made with freeSeq := seq }
      ∧ made.ret.window = s.ret.window ∧ made.streams = s.streams ∧ made.sched = s.sched ∧ made.comp = s.comp
      ∧ made.host.engine = .ready := by
  rcases comes with ⟨rfl, takes⟩ | ⟨rfl, makes⟩
  · obtain ⟨station, seq, row⟩ := takeReturn_of_answers whole check number answers
    refine ⟨{ s with ret.lastStation := station }, seq, ?_, rfl, rfl, rfl, rfl, takes.1⟩
    rw [exec_returnArrival_of_takes takes, row]
  · obtain ⟨station, seq, row⟩ := takeReturn_of_answers (s := { s with link.loopDue := false }) whole check number answers
    refine ⟨{ s with link.loopDue := false, ret.lastStation := station }, seq, ?_, rfl, rfl, rfl, rfl, makes.1⟩
    rw [exec_loopedReturn_of_makes makes, row]

theorem bankOf_congr (same : t.sched = s.sched) (g : Gen) : t.bankOf g = s.bankOf g := by
  unfold State.bankOf
  rw [same]

/-- The turn depends on the stream and the schedule alone. -/
theorem hasInTurn_congr (has : HasInTurn s i sh mode e) (shape : (t.stream i).shape = (s.stream i).shape)
    (bank : t.bankOf e.generation = s.bankOf e.generation) : HasInTurn t i sh mode e := by
  obtain ⟨shape', rest⟩ := has
  refine ⟨shape.trans shape', ?_⟩
  rw [bank]
  exact rest

theorem returnGivesInStreamTurn : Claims.ReturnGivesInStreamTurn := by
  intro s a words good _ e rest i sh mode banks comes whole check window number has
  obtain ⟨made, seq, row, held, streams, sched, comp, ready⟩ :=
    exec_of_returnComes comes whole check number ((awaits_iff s e.frame).2 ⟨e, by simp [window], rfl⟩)
  rw [resolveThrough_of_oldest (held.trans window)] at row
  have same := stream_congr streams i
  have bank : made.bankOf e.generation = s.bankOf e.generation := bankOf_congr sched e.generation
  have has' : HasInTurn { made with ret.window := rest } i sh mode e := hasInTurn_congr has (congrArg Stream.shape same) bank
  obtain ⟨turnSeq, taken⟩ := resolve_taken (s := { made with ret.window := rest }) ready has' (returnResolution good) words
  have grows := grows_resolve { made with ret.window := rest } e (returnResolution good) words
  generalize State.resolve _ e _ words = v at *
  have start : Grows s { made with ret.window := rest } := .of_comp comp
  have found : MovedBySwap (s.stream i) (({ made with ret.window := rest } : State).stream i) := same ▸ .refl _
  have left : Grows v { v with freeSeq := seq } := .of_comp rfl
  obtain ⟨fits, lost, stands⟩ := taken.within start found grows left (.refl _)
  refine ⟨_, row, fun issuing room => ?_, lost, stands⟩
  obtain ⟨staged, quiet, zero, recovered⟩ := fits issuing room
  refine ⟨_, staged, ?_, quiet, zero, recovered⟩
  have turn := isReturnedTurn_buildTurn (good := good) banks whole has turnSeq
  rw [← bank] at turn
  exact turn

/-! ## The newer of two entries (R10, R11) -/

/-- While an entry of the window is of a generation, its bank stays (R82). -/
theorem bankOf_of_held {k : Schedule} (sched : k = { s.sched with retiring := s.sched.retiring && s.windowHolds (s.sched.generation - 1) })
    (same : t.sched = k) (held : e ∈ s.ret.window) : t.bankOf e.generation = s.bankOf e.generation := by
  unfold State.bankOf
  rw [same, sched]
  dsimp only
  by_cases newest : e.generation = s.sched.generation
  · rw [if_pos newest, if_pos newest]
  · rw [if_neg newest, if_neg newest]
    by_cases older : e.generation + 1 = s.sched.generation
    · have holds : s.windowHolds (s.sched.generation - 1) = true :=
        (windowHolds_iff s _).2 ⟨e, held, by rw [← older, BitVec.add_sub_cancel]⟩
      rw [holds, Bool.and_true]
    · rw [if_neg (fun h => older h.2), if_neg (fun h => older h.2)]

theorem olderMissing_sched (s : State) (e' e : WindowEntry) :
    (s.olderMissing e' e).sched =
      { s.sched with retiring := s.sched.retiring && ({ s with ret.window := [e] } : State).windowHolds (s.sched.generation - 1) } := by
  rw [State.olderMissing]
  dsimp only
  rw [resolved_frame]

theorem olderMissing_stream (s : State) (e' e : WindowEntry) (i : StreamId) :
    (s.olderMissing e' e).stream i = (({ s with ret.window := [e] } : State).turned e' .missing []).stream i :=
  resolved_stream _ _ _ _ i

/-- The older of two entries gives its turn before the newer resolves. -/
theorem olderMissing_taken (ready : s.host.engine = .ready) (has : HasInTurn s i sh mode e') (e : WindowEntry) :
    MissingTurnTaken s (s.olderMissing e' e) i sh e'.frame := by
  have has' : HasInTurn { s with ret.window := [e] } i sh mode e' := has
  obtain ⟨seq, taken⟩ := turned_taken (s := { s with ret.window := [e] }) ready has' .missing []
  have missing := missingTurnTaken_of_taken has' taken
  have grows := grows_turned { s with ret.window := [e] } e' .missing []
  have later : Grows (({ s with ret.window := [e] } : State).turned e' .missing []) (s.olderMissing e' e) :=
    (grows_resolved_of_turned _ e' .missing []).trans (.of_comp rfl)
  refine TurnTaken.within missing (.of_comp rfl) (.refl _) grows later ?_
  rw [olderMissing_stream]
  exact .refl _

/-- What the older entry's turn leaves of the stream but for its elements and run. -/
theorem olderMissing_keeps (s : State) (e' e : WindowEntry) (i : StreamId) :
    ((s.olderMissing e' e).stream i).state = (s.stream i).state ∧ ((s.olderMissing e' e).stream i).shape = (s.stream i).shape
    ∧ ((s.olderMissing e' e).stream i).samples = (s.stream i).samples := by
  rw [olderMissing_stream]
  exact turned_keeps { s with ret.window := [e] } e' .missing [] i

theorem stagedWords_of_shape {c : Stream} (shape : c.shape = some sh) :
    c.stagedWords = c.samples.length + sh.kind.wordsPerElement * c.elements.length := by simp [Stream.stagedWords, shape]

/-- An older entry whose turn is staged, and the newer entry's turn after it. -/
theorem staged_behind {turn : List Element} {c d : Stream} (shape : c.shape = some sh) (shape' : d.shape = some sh)
    (samples : d.samples = c.samples) (elements : d.elements = c.elements ++ turn) (length : turn.length = sh.channels) :
    d.stagedWords = c.stagedWords + sh.kind.wordsPerElement * sh.channels := by
  rw [stagedWords_of_shape shape, stagedWords_of_shape shape', samples, elements, List.length_append, length, Nat.mul_add, Nat.add_assoc]

theorem missingTurn_length (sh : Shape) (f : FrameNo) : (missingTurn sh f).length = sh.channels := by simp [missingTurn]

end

/-! ## Two turns one after another -/

section
variable {s u t : State} {i : StreamId} {sh : Shape} {f f' : FrameNo} {turn : List Element}

/-- The state after the first of two turns finds the stream OPEN or LIVE as it was, of the same shape, with its samples as they were. -/
structure TurnBetween (s u t : State) (i : StreamId) (sh : Shape) : Prop where
  opens : (s.stream i).state = .opened ∨ (s.stream i).state = .live
  shape : (s.stream i).shape = some sh
  state : (u.stream i).state = (s.stream i).state
  shapeKept : (u.stream i).shape = (s.stream i).shape
  samples : (u.stream i).samples = (s.stream i).samples
  before : Grows s u
  after : Grows u t

variable (between : TurnBetween s u t i sh) (first : MissingTurnTaken s u i sh f) (second : TurnTaken u t i sh f' turn)
include between first second

theorem both_turns_staged (room : (s.stream i).stagedWords + 2 * (sh.kind.wordsPerElement * sh.channels) ≤ sh.depth) :
    (t.stream i).elements = (s.stream i).elements ++ missingTurn sh f ++ turn
    ∧ (t.stream i).runFlag = false ∧ (t.stream i).runCount = 0
    ∧ ((s.stream i).runFlag = true → Presented s t (.streamRecovered i f (s.stream i).runCount)) := by
  obtain ⟨elements, -, -, recovered⟩ := first.1 between.opens (by omega)
  have words := staged_behind between.shape (between.shapeKept.trans between.shape) between.samples elements (missingTurn_length sh f)
  obtain ⟨elements', quiet, zero, -⟩ := second.1 (by rw [between.state]; exact between.opens) (by omega)
  exact ⟨by rw [elements', elements], quiet, zero, fun runs => (recovered runs).within (.refl s) between.before between.after⟩

theorem first_turn_staged (room : (s.stream i).stagedWords + sh.kind.wordsPerElement * sh.channels ≤ sh.depth)
    (full : sh.depth < (s.stream i).stagedWords + 2 * (sh.kind.wordsPerElement * sh.channels)) :
    (t.stream i).elements = (s.stream i).elements ++ missingTurn sh f
    ∧ (t.stream i).runFlag = true ∧ (t.stream i).runCount = 1 ∧ Presented s t (.streamOverrun i f')
    ∧ ((s.stream i).runFlag = true → Presented s t (.streamRecovered i f (s.stream i).runCount)) := by
  obtain ⟨elements, quiet, -, recovered⟩ := first.1 between.opens room
  have words := staged_behind between.shape (between.shapeKept.trans between.shape) between.samples elements (missingTurn_length sh f)
  obtain ⟨elements', runs, count, overrun⟩ := second.2.1 (by rw [between.state]; exact between.opens) (by omega)
  refine ⟨elements'.trans elements, runs, ?_, (overrun quiet).within between.before between.after (.refl t),
    fun runs => (recovered runs).within (.refl s) between.before between.after⟩
  rw [count, quiet]
  rfl

theorem both_turns_lost (full : sh.depth < (s.stream i).stagedWords + sh.kind.wordsPerElement * sh.channels) :
    (t.stream i).elements = (s.stream i).elements ∧ (t.stream i).runFlag = true
    ∧ (t.stream i).runCount = (if (s.stream i).runFlag then min 65535 ((s.stream i).runCount + 2) else 2)
    ∧ ((s.stream i).runFlag = false → Presented s t (.streamOverrun i f)) := by
  obtain ⟨elements, runs, count, overrun⟩ := first.2.1 between.opens full
  have words : (u.stream i).stagedWords = (s.stream i).stagedWords := by
    rw [stagedWords_of_shape between.shape, stagedWords_of_shape (between.shapeKept.trans between.shape), between.samples, elements]
  obtain ⟨elements', runs', count', -⟩ := second.2.1 (by rw [between.state]; exact between.opens) (by omega)
  refine ⟨elements'.trans elements, runs', ?_, fun quiet => (overrun quiet).within (.refl s) between.before between.after⟩
  rw [count', runs, if_pos rfl, count]
  split <;> omega

end

section
variable {s made t : State} {i : StreamId} {sh : Shape} {e e' : WindowEntry} {f : FrameNo}

theorem returnSettlesTheOlderTurnFirst : Claims.ReturnSettlesTheOlderTurnFirst := by
  intro s a words good _ e' e i sh mode size banks comes whole check window number other has opens sizes
  subst sizes
  obtain ⟨made, seq, row, held, streams, sched, comp, ready⟩ :=
    exec_of_returnComes comes whole check number ((awaits_iff s e.frame).2 ⟨e, by simp [window], rfl⟩)
  have through := resolveThrough_of_newer (held.trans window) other (returnResolution good) words
  have same := stream_congr streams i
  have bank : made.bankOf e.generation = s.bankOf e.generation := bankOf_congr sched e.generation
  obtain ⟨state, shape, samples⟩ := olderMissing_keeps made e' e i
  rw [same] at state shape samples
  have bank' : (made.olderMissing e' e).bankOf e.generation = s.bankOf e.generation :=
    (bankOf_of_held (s := { made with ret.window := [e] }) rfl (olderMissing_sched made e' e) (by simp)).trans bank
  have has' : HasInTurn (made.olderMissing e' e) i sh mode e := hasInTurn_congr has shape bank'
  obtain ⟨turnSeq, taken⟩ := resolve_taken (by rw [olderMissing_host]; exact ready) has' (returnResolution good) words
  have grows := grows_resolve (made.olderMissing e' e) e (returnResolution good) words
  have turn := isReturnedTurn_buildTurn (good := good) banks whole has turnSeq
  rw [bank'] at taken
  have before : Grows s (made.olderMissing e' e) := (grows_olderMissing made e' e).congr comp
  have older (has : HasInTurn s i sh mode e') : MissingTurnTaken s (made.olderMissing e' e) i sh e'.frame :=
    TurnTaken.within (olderMissing_taken ready (hasInTurn_congr has (congrArg Stream.shape same) (bankOf_congr sched _)) e) (.of_comp comp)
      (same ▸ .refl _) (grows_olderMissing made e' e) (.refl _) (.refl _)
  have idle (later : e'.frame.toNat % sh.period ≠ sh.phase) : (made.olderMissing e' e).stream i = s.stream i := by
    obtain ⟨shape, kind, -⟩ := has
    rw [olderMissing_stream, turned_stream_of_idle (s := { made with ret.window := [e] }) ((congrArg Stream.shape same).trans shape) kind
      (.inl later)]
    exact same
  have row' : exec a s = .next { (made.olderMissing e' e).resolve e (returnResolution good) words with freeSeq := seq } :=
    row.trans (congrArg (fun v : State => Host.Outcome.next { v with freeSeq := seq }) through)
  generalize made.olderMissing e' e = u at *
  generalize State.resolve u e _ words = v at *
  have left : Grows v { v with freeSeq := seq } := .of_comp rfl
  have second : TurnTaken u { v with freeSeq := seq } i sh e.frame _ := taken.within (.refl u) (.refl _) grows left (.refl _)
  have between : TurnBetween s u { v with freeSeq := seq } i sh :=
    ⟨opens, has.1, state, shape, samples, before, grows.trans left⟩
  refine ⟨_, row', fun has => ⟨fun room => ?_, fun room full => ?_, fun full => ?_⟩, fun later => ⟨fun room => ?_, fun full => ?_⟩⟩
  · obtain ⟨elements, quiet, zero, recovered⟩ := both_turns_staged between (older has) second room
    exact ⟨_, elements, turn, quiet, zero, recovered⟩
  · exact first_turn_staged between (older has) second room full
  · exact both_turns_lost between (older has) second full
  · rw [← idle later] at room opens ⊢
    obtain ⟨elements, -⟩ := second.1 opens room
    exact ⟨_, elements, turn⟩
  · rw [← idle later] at full opens ⊢
    exact (second.2.1 opens full).1

/-! ## Frame starts (R8, R9) -/

/-- The bank of the older entry's generation stays through the swap of a frame start (R80, R82). -/
theorem bankOf_settledFor (held : e ∈ s.ret.window) (newest : s.swapsAt f = true → e.generation = s.sched.generation) :
    (s.settledFor f).bankOf e.generation = s.bankOf e.generation := by
  cases swaps : s.swapsAt f
  · exact bankOf_congr (settledFor_sched_of_no_swap swaps) _
  · have generation := newest swaps
    have retires : (s.ret.window.any fun y => decide (y.generation = s.sched.generation)) = true :=
      List.any_eq_true.2 ⟨e, held, by simp [generation]⟩
    have next : s.sched.generation ≠ s.sched.generation + 1 := by bv_omega
    simp only [State.bankOf, settledFor_sched_of_swap swaps, State.scheduleSwapped, generation, retires, if_neg next]
    simp

theorem frameStartGivesMissingTurn : Claims.FrameStartGivesMissingTurn := by
  intro s e1 e2 i sh mode ready running timer window newest shape kind
  let f := s.link.frame + 1
  let room : State := { s.sentFor f with ret.window := [e2] }
  have stream : room.stream i = s.streamFor f i :=
    sentFor_stream_of_idle (.inr (.inr fun sh' shape' => .inl (by
      have same : sh = sh' := Option.some.inj (shape.symm.trans shape')
      rw [← same, kind]
      rfl)))
  have shape' : (room.stream i).shape = some sh := by rw [stream, streamFor_shape, shape]
  have bank : room.bankOf e1.generation = s.bankOf e1.generation :=
    (bankOf_congr (sentFor_sched s f) _).trans (bankOf_settledFor (by simp [window]) newest)
  have start : Grows s room := ((grows_settledFor s f).trans (grows_sentFor s f)).trans (.of_comp rfl)
  have resolved : s.roomFor f = room.resolved e1 .missing [] := roomFor_of_long window (by simp)
  have left : (s.frameStart f).stream i = (room.turned e1 .missing []).stream i := by rw [frameStart_stream, resolved, resolved_stream]
  have ready' : room.host.engine = .ready := by
    change (s.sentFor f).host.engine = .ready
    rw [sentFor_host, ready]
  have last : Grows (room.turned e1 .missing []) (s.frameStart f) :=
    (grows_resolved_of_turned room e1 .missing []).trans (.of_comp (by rw [frameStart_comp, resolved]))
  have moved : MovedBySwap (s.stream i) (room.stream i) := by
    rw [stream]
    exact movedBySwap_streamFor (isOut_of_in shape kind) f
  have grew := grows_turned room e1 .missing []
  refine ⟨_, exec_frameTimerExpiry_of_running ready running timer, fun has => ?_, fun idle => ?_⟩
  · have has' : HasInTurn room i sh mode e1 := hasInTurn_congr has (shape'.trans shape.symm) bank
    obtain ⟨seq, taken⟩ := turned_taken ready' has' .missing []
    have missing := missingTurnTaken_of_taken has' taken
    refine TurnTaken.within missing start moved grew last ?_
    rw [left]
    exact .refl _
  · rw [← bank] at idle
    have stands := turned_stream_of_idle shape' kind idle .missing []
    exact left.trans (stands.trans stream)

end

/-- Settles O32. -/
theorem resolutionsGiveInStreamTurns : Obligations.ResolutionsGiveInStreamTurns :=
  ⟨returnGivesInStreamTurn, returnSettlesTheOlderTurnFirst, missingFrameGivesInStreamTurn, frameStartGivesMissingTurn⟩

end Sys2Proof.Machine
